-- ==== Sys2Proof/Word.lean ====
section
/-! DEFINITION. The word types of BQC-ATR (spec/00_scope.md R9, R10): the binary64 data word, the 32-bit command
word and the byte of a host-bus lane. A `Word` is only a bit pattern; its arithmetic stands in Machine/Float.lean. -/

namespace Sys2Proof

/-- A 64-bit word: an IEEE 754 binary64 bit pattern, or a 64-bit integer view of one (R9). -/
abbrev Word := BitVec 64

/-- A 32-bit command word (R100). -/
abbrev CmdWord := BitVec 32

/-- One byte: a lane of a host access or a byte of the ring memory (R85). -/
abbrev Byte := BitVec 8

end Sys2Proof
end

