-- ==== Sys2Proof/Syntax.lean ====
section
/-! DEFINITION. The commands of BQC-ATR: one constructor per row of spec/opcode_table.json (spec/30_encoding.md R106).
A command's binary64 operands are not part of it: they stand in the host-window registers OP0 and OP1 (R104). -/

namespace Sys2Proof

/-- The tape formula `f` of R16: `f1` is Formula 1 and `f2` is Formula 2. -/
inductive Formula where
  | f1
  | f2
  deriving DecidableEq, Repr, Inhabited

/-- A decoded host command. Formats N and F need no check: format F's one bit is already a `Formula` (R105).
`rdReg` holds its register-space address as a number; `WellFormed` says that it fits the 12-bit field `ADDR` (R103). -/
inductive Instr where
  /-- NOP, R341 -/
  | nop
  /-- CONFIGURE, R342 -/
  | configure
  /-- SET_PROFILE, R347; the operand is FORMULA_NEW = 1 + F -/
  | setProfile (f : Formula)
  /-- RESET, R343 -/
  | reset
  /-- PROCESS, R344 -/
  | process
  /-- PROCESS2, R345 -/
  | process2
  /-- RD_REG, R346 -/
  | rdReg (addr : Nat)
  /-- CAL_SAT_A3, R350 -/
  | calSatA3
  /-- CAL_POWER, R351 -/
  | calPower
  /-- CAL_LOW_SCALE, R352 -/
  | calLowScale
  /-- CAL_BLEND_RATIO, R353 -/
  | calBlendRatio
  /-- CAL_LOW_THRESH, R354 -/
  | calLowThresh
  /-- CAL_CURVE_POWER, R355 -/
  | calCurvePower
  /-- CAL_KNEE_THRESH, R356 -/
  | calKneeThresh
  /-- CAL_KNEE_AMOUNT, R357 -/
  | calKneeAmount
  deriving DecidableEq, Repr

end Sys2Proof
end

