-- ==== Sys2Proof/WellFormed.lean ====
section
/-! DEFINITION. Which commands have an encoding (spec/30_encoding.md R101 to R103): the one check is that an RD_REG
address fits the 12-bit field `ADDR`. -/

namespace Sys2Proof

/-- A command that some command word spells (R106): every one but an RD_REG of an address above 0xFFF. -/
def Instr.wellFormed : Instr → Bool
  | .nop => true
  | .configure => true
  | .setProfile _ => true
  | .reset => true
  | .process => true
  | .process2 => true
  | .rdReg addr => decide (addr < 4096)
  | .calSatA3 => true
  | .calPower => true
  | .calLowScale => true
  | .calBlendRatio => true
  | .calLowThresh => true
  | .calCurvePower => true
  | .calKneeThresh => true
  | .calKneeAmount => true

end Sys2Proof
end

