-- ==== Sys2Proof/Decode.lean ====
section
/-! DEFINITION. Decoding a command word and encoding one (spec/30_encoding.md R100 to R110), and the little-endian
byte order of the host window (spec/20_memory.md R85). -/

namespace Sys2Proof

/-- The number that little-endian lanes spell: lane `i` holds bits `[8i+7 : 8i]` (R85). -/
def ofLanes : List Byte → Nat
  | [] => 0
  | b :: rest => b.toNat + 256 * ofLanes rest

/-- The `k` little-endian lanes of a number, lowest byte first (R85). -/
def toLanes : Nat → Nat → List Byte
  | 0, _ => []
  | k + 1, n => BitVec.ofNat 8 n :: toLanes k (n / 256)

/-- Why a word is ILLEGAL (R107, R108). -/
inductive Illegal where
  /-- opcode 0x07 to 0x0F or 0x18 to 0xFF -/
  | unassignedOpcode
  /-- a nonzero bit in a field the format requires to be zero -/
  | nonzeroReserved
  /-- not one 32-bit word; no accepted `CMD` write has another length (R86, R100) -/
  | notOneWord
  deriving DecidableEq, Repr

/-- Format N (R101): bits [23:0] must be zero. -/
def decodeN (w : CmdWord) (i : Instr) : Except Illegal Instr :=
  if w.toNat % 2 ^ 24 = 0 then .ok i else .error .nonzeroReserved

/-- Format F (R102, R105): bits [23:1] must be zero; bit 0 is `F` and the formula is `1 + F`. -/
def decodeF (w : CmdWord) : Except Illegal Instr :=
  if w.toNat % 2 ^ 24 / 2 = 0 then
    .ok (.setProfile (if w.toNat % 2 = 0 then .f1 else .f2))
  else .error .nonzeroReserved

/-- Format A (R103, R105): bits [23:12] must be zero; bits [11:0] are `ADDR`, unscaled and unsigned. -/
def decodeA (w : CmdWord) : Except Illegal Instr :=
  if w.toNat % 2 ^ 24 / 2 ^ 12 = 0 then .ok (.rdReg (w.toNat % 2 ^ 12)) else .error .nonzeroReserved

/-- The decoder of R107, total on every 32-bit word. Bits [31:24] are the opcode. -/
def decode (w : CmdWord) : Except Illegal Instr :=
  match w.toNat / 2 ^ 24 with
  | 0x00 => decodeN w .nop
  | 0x01 => decodeN w .configure
  | 0x02 => decodeF w
  | 0x03 => decodeN w .reset
  | 0x04 => decodeN w .process
  | 0x05 => decodeN w .process2
  | 0x06 => decodeA w
  | 0x10 => decodeN w .calSatA3
  | 0x11 => decodeN w .calPower
  | 0x12 => decodeN w .calLowScale
  | 0x13 => decodeN w .calBlendRatio
  | 0x14 => decodeN w .calLowThresh
  | 0x15 => decodeN w .calCurvePower
  | 0x16 => decodeN w .calKneeThresh
  | 0x17 => decodeN w .calKneeAmount
  | _ => .error .unassignedOpcode

/-- The decoder on the four lanes of a `CMD` write, lowest offset first (R85, R100). -/
def decodeBytes (lanes : List Byte) : Except Illegal Instr :=
  if lanes.length = 4 then decode (BitVec.ofNat 32 (ofLanes lanes)) else .error .notOneWord

/-- The instruction the decoder reads from a table word: `w` laid out as the host window holds it. -/
def decodeTableWord (nbits w : Nat) : Option Instr :=
  (decodeBytes (toLanes 4 (w % 2 ^ nbits))).toOption

/-- The opcode of a command, bits [31:24] of its word (R106). -/
def opcode : Instr → Nat
  | .nop => 0x00
  | .configure => 0x01
  | .setProfile _ => 0x02
  | .reset => 0x03
  | .process => 0x04
  | .process2 => 0x05
  | .rdReg _ => 0x06
  | .calSatA3 => 0x10
  | .calPower => 0x11
  | .calLowScale => 0x12
  | .calBlendRatio => 0x13
  | .calLowThresh => 0x14
  | .calCurvePower => 0x15
  | .calKneeThresh => 0x16
  | .calKneeAmount => 0x17

/-- The low 24 bits of a command's word: `F` in format F, `ADDR` in format A, zero in format N (R101 to R103). -/
def lowField : Instr → Nat
  | .setProfile .f1 => 0
  | .setProfile .f2 => 1
  | .rdReg addr => addr
  | .nop | .configure | .reset | .process | .process2 | .calSatA3 | .calPower | .calLowScale
  | .calBlendRatio | .calLowThresh | .calCurvePower | .calKneeThresh | .calKneeAmount => 0

/-- The word of a well-formed command (R106): its opcode over its low field. -/
def encode (i : Instr) : CmdWord := BitVec.ofNat 32 (opcode i * 2 ^ 24 + lowField i)

/-- The four lanes of a command's word, as a `CMD` write carries them (R85). -/
def encodeBytes (i : Instr) : List Byte := toLanes 4 (encode i).toNat

/-- The `mask` column of R106: the bits a row fixes. -/
def rowMask : Instr → CmdWord
  | .setProfile _ => 0xFFFFFFFE#32
  | .rdReg _ => 0xFFFFF000#32
  | .nop | .configure | .reset | .process | .process2 | .calSatA3 | .calPower | .calLowScale
  | .calBlendRatio | .calLowThresh | .calCurvePower | .calKneeThresh | .calKneeAmount => 0xFFFFFFFF#32

/-- The `match` column of R106: the value a row's fixed bits have. -/
def rowMatch (i : Instr) : CmdWord := BitVec.ofNat 32 (opcode i * 2 ^ 24)

end Sys2Proof
end

