-- ==== Sys2Proof/Config.lean ====
section
/-! DEFINITION. What an implementation of BQC-ATR fixes (spec/00_scope.md R7): the types of the OPEN parameters, the
values of the parameters the spec fixes, and the constants nothing here gives a value (the free values of the model).
The literals of R8 are the binary64 patterns nearest to the decimals as written (D2). -/

namespace Sys2Proof

/-- The machine profile `p` of R16: Profile A ("Master") and Profile B ("Tracks"). -/
inductive Profile where
  | A
  | B
  deriving DecidableEq, Repr, Inhabited

/-- A filter descriptor (R120): the kind code of R121 (codes 5 to 7 make the design fail), the frequency in Hz, the
quality factor and the gain in dB. -/
structure Descriptor where
  kind : BitVec 3
  f : Word
  q : Word
  gdb : Word
  deriving DecidableEq, Repr, Inhabited

/-- The eleven tuning fields of R36, which are also the eleven active tuning registers of R37. -/
structure Tuning where
  satA3 : Word
  satPower : Word
  lowScale : Word
  blendRatio : Word
  lowThresh : Word
  curvePower : Word
  kneeThresh : Word
  kneeAmount : Word
  dcBias : Word
  outScale : Word
  msScale : Word
  deriving DecidableEq, Repr, Inhabited

/-- The Jiles-Atherton constants of one formula, `JA_PARAMS[f]` (R280). -/
structure JaParams where
  ms0 : Word
  a : Word
  alpha : Word
  k : Word
  c : Word
  deriving DecidableEq, Repr, Inhabited

/-- The legal values of `EQ_N[p]` (R7, R156). -/
inductive EqCount where
  | ten
  | eleven
  | twelve
  deriving DecidableEq, Repr, Inhabited

/-- The number an `EqCount` stands for. -/
def EqCount.toNat : EqCount → Nat
  | .ten => 10
  | .eleven => 11
  | .twelve => 12

/-- Which library `NUMLIB` is (R7, R13): the correctly rounded functions, the spec's default, or another library,
which the model knows only through the free functions `Config.platformLib`. -/
inductive NumLibChoice where
  | correctlyRounded
  | platform (id : Nat)
  deriving DecidableEq, Repr, Inhabited

/-- Which function `JA_SOLVE` is (R7): the reference solver of R292 (the default), the test port of R296, or another
solver on the port, which the model knows only through the free function `Config.attachedSolver`. -/
inductive SolverChoice where
  | ref
  | zero
  | attached (id : Nat)
  deriving DecidableEq, Repr, Inhabited

/-- A time constant in milliseconds: finite and above zero, by its pattern. The default is 1.0. That a time constant is
positive is read from R313, where `FADE_INC` is positive (notes/assumptions/21.md, DEDUCED). -/
structure Milliseconds where
  val : Word := 0x3FF0000000000000#64
  positive : 0 < val.toNat ∧ val.toNat < 0x7FF0000000000000 := by decide
  deriving DecidableEq, Repr, Inhabited

/-- A coefficient of an envelope follower: in (0, 1) (R220), by its pattern. The default is 0.5. -/
structure Smoothing where
  val : Word := 0x3FE0000000000000#64
  inside : 0 < val.toNat ∧ val.toNat < 0x3FF0000000000000 := by decide
  deriving DecidableEq, Repr, Inhabited

/-- The parameters an implementation chooses (R7): every OPEN entry of the table that a rule depends on, which has no
default here except for the library and the solver, whose default R13 and R292 name; and, with the default the table
writes, every other parameter that a model takes as an argument: `PROFILE_A_AT_OR_ABOVE` and `GAIN_TRIGGERS_RECOMPUTE`
(the last table of `92_eei_decisions.md`), and the approximate literals of `93_implementation_defined.md` row 20. Entries
of `eqDesignA` and `eqDesignB` at or above the bank's count are unused. The kind codes of the shield designs are ignored
(R200). -/
structure Params where
  eqNA : EqCount
  eqNB : EqCount
  eqDesignA : Vector Descriptor 12
  eqDesignB : Vector Descriptor 12
  shieldDesignA : Vector Descriptor 3
  shieldDesignB : Vector Descriptor 3
  nDisp : Fin 65
  dispBaseA : Word
  dispBaseB : Word
  tuningA1 : Tuning
  tuningA2 : Tuning
  tuningB1 : Tuning
  tuningB2 : Tuning
  ja1 : JaParams
  ja2 : JaParams
  solver : SolverChoice := .ref
  numlib : NumLibChoice := .correctlyRounded
  gainTriggersRecompute : Bool := true
  /-- `PROFILE_A_AT_OR_ABOVE`: which side of the threshold is Profile A -/
  profileAAtOrAbove : Bool := true
  /-- `ENV_ATTACK_C` = 0.9 -/
  envAttackC : Smoothing := { val := 0x3FECCCCCCCCCCCCD#64 }
  /-- `ENV_RELEASE_C` = 0.999 -/
  envReleaseC : Smoothing := { val := 0x3FEFF7CED916872B#64 }
  /-- `BLEND_ATT_MS` = 1.0 -/
  blendAttMs : Milliseconds := { val := 0x3FF0000000000000#64 }
  /-- `BLEND_REL_MS` = 50.0 -/
  blendRelMs : Milliseconds := { val := 0x4049000000000000#64 }
  /-- `FADE_MS` = 150.0 -/
  fadeMs : Milliseconds := { val := 0x4062C00000000000#64 }
  deriving DecidableEq, Repr, Inhabited

/-- `EQ_N[p]` (R7). -/
def Params.eqN (P : Params) : Profile → Nat
  | .A => P.eqNA.toNat
  | .B => P.eqNB.toNat

/-- The descriptors `EQ_DESIGN[p][0 .. EQ_N[p]-1]` (R7, R154). -/
def Params.eqDesign (P : Params) : Profile → List Descriptor
  | .A => P.eqDesignA.toList.take P.eqNA.toNat
  | .B => P.eqDesignB.toList.take P.eqNB.toNat

/-- The descriptors `SHIELD_DESIGN[p][0..2]` (R7, R200). -/
def Params.shieldDesign (P : Params) : Profile → Vector Descriptor 3
  | .A => P.shieldDesignA
  | .B => P.shieldDesignB

/-- `DISP_BASE[p]` (R7, R184). -/
def Params.dispBase (P : Params) : Profile → Word
  | .A => P.dispBaseA
  | .B => P.dispBaseB

/-- `TUNING[p][f]` (R36). -/
def Params.tuning (P : Params) : Profile → Formula → Tuning
  | .A, .f1 => P.tuningA1
  | .A, .f2 => P.tuningA2
  | .B, .f1 => P.tuningB1
  | .B, .f2 => P.tuningB2

/-- `JA_PARAMS[f]` (R280). -/
def Params.ja (P : Params) : Formula → JaParams
  | .f1 => P.ja1
  | .f2 => P.ja2

/-- The library functions of `NUMLIB` (R13); `pow` takes both arguments, the others their first. -/
inductive LibFn where
  | tan
  | tanh
  | pow
  | exp
  | sin
  | cos
  deriving DecidableEq, Repr

namespace Config

/-! ### Free values: constants without a body, of which nothing can be proved -/

/-- The parameters of this implementation: the entries of R7 that a model takes as an argument. They are the `par` field of `State.reset`
(notes/assumptions/1.md). -/
opaque params : Params

/-- The functions of a library other than the default (R13, D3); library `id`, function, arguments.
`Machine/NumLib.lean` adds the properties R13 assumes of every library (notes/assumptions/2.md). -/
opaque platformLib : Nat → LibFn → Word → Word → Word

/-- `tan`, `sin` and `cos` of the default library at an infinity or a NaN, where they have no value to round correctly
and the spec states none (notes/assumptions/2.md). A design reaches them when `PI × f` overflows. -/
opaque trigEdge : LibFn → Word → Word

/-- A solver other than `JA_REF` and `JA_ZERO` on the solver port (R280): solver `id`, the constants of the formula,
`Ms`, `fs`, `Hprev`, `Mprev`, `H`; the results are `Hn`, `Mn`, `out`. `Machine/Hysteresis.lean` adds the properties
R284, R287 and R289 require of every solver (notes/assumptions/3.md). -/
opaque attachedSolver : Nat → JaParams → Word → Word → Word → Word → Word → Word × Word × Word

/-- Which of two zeros of opposite sign `min` and `max` return: the spec calls them exact (R13) and does not say
(notes/assumptions/4.md). The answer is whether the first is returned. -/
opaque zeroTie : Word → Word → Bool

/-! ### Parameters whose default of R7 the model uses -/

/-- `PROFILE_THRESHOLD` = 0.74 -/
def profileThreshold : Word := 0x3FE7AE147AE147AE#64
/-- `FTZ_MIN` = 2^-1022 -/
def ftzMin : Word := 0x0010000000000000#64
/-- `RING_SIZE` -/
def ringSize : Nat := 16
/-- `AZ_US[A]` = 8.0 µs, `AZ_US[B]` = 12.0 µs (D34) -/
def azMicroseconds : Profile → Word
  | .A => 0x4020000000000000#64
  | .B => 0x4028000000000000#64
/-- `THIRAN_MIN_FRAC` = 0.1 -/
def thiranMinFrac : Word := 0x3FB999999999999A#64
/-- `DCB_N` -/
def dcbN : Nat := 2
/-- `DCB_F` = 5.0 Hz -/
def dcbF : Word := 0x4014000000000000#64
/-- `DCB_Q`, the binary64 nearest 1/√2 (R157) -/
def dcbQ : Word := 0x3FE6A09E667F3BCD#64
/-- `ENV_FLOOR` = 0.01 -/
def envFloor : Word := 0x3F847AE147AE147B#64
/-- `HLIM_T` = 1.5 -/
def hlimT : Word := 0x3FF8000000000000#64
/-- `HLIM_W` = 0.5 -/
def hlimW : Word := 0x3FE0000000000000#64
/-- `JA_ITERS` (R283) -/
def jaIters : Nat := 8
/-- `JA_STEP_FRAC` = 0.1 (R284) -/
def jaStepFrac : Word := 0x3FB999999999999A#64
/-- The slew limit's numerator, 10000 (R282) -/
def jaSlew : Word := 0x40C3880000000000#64
/-- The Taylor threshold of the Langevin function, 0.01 (R285) -/
def langTaylor : Word := 0x3F847AE147AE147B#64
/-- The `tanh` threshold of the Langevin fallback, 1e-6 (R285) -/
def langTanhMin : Word := 0x3EB0C6F7A0B5ED8D#64
/-- The extended ceiling's factor, 1.1 (R287) -/
def softCeil : Word := 0x3FF199999999999A#64
/-- The soft limit's knee, 90 % (R287) -/
def softKnee : Word := 0x3FECCCCCCCCCCCCD#64
/-- The constant of the ID register, "BQC1" (R31) -/
def idConstant : Word := 0x0000000042514331#64

end Config

/-! ### The binary64 literals of the rules, named by their value -/

/-- +0.0 -/
def Lit.zero : Word := 0x0000000000000000#64
/-- 0.5 -/
def Lit.half : Word := 0x3FE0000000000000#64
/-- 1.0 -/
def Lit.one : Word := 0x3FF0000000000000#64
/-- −1.0 -/
def Lit.negOne : Word := 0xBFF0000000000000#64
/-- 2.0 -/
def Lit.two : Word := 0x4000000000000000#64
/-- −2.0 -/
def Lit.negTwo : Word := 0xC000000000000000#64
/-- 3.0 -/
def Lit.three : Word := 0x4008000000000000#64
/-- 10.0 -/
def Lit.ten : Word := 0x4024000000000000#64
/-- 15.0 -/
def Lit.fifteen : Word := 0x402E000000000000#64
/-- 40.0 -/
def Lit.forty : Word := 0x4044000000000000#64
/-- 45.0 -/
def Lit.fortyFive : Word := 0x4046800000000000#64
/-- 1000.0 -/
def Lit.thousand : Word := 0x408F400000000000#64
/-- 1.0e6 -/
def Lit.million : Word := 0x412E848000000000#64
/-- `PI` (R13) -/
def Lit.pi : Word := 0x400921FB54442D18#64

/-! ### The transparent test configuration -/

/-- A descriptor of `T0`: 1000 Hz, Q 1, 0 dB (R321). -/
def Params.flat (kind : BitVec 3) : Descriptor := ⟨kind, Lit.thousand, Lit.one, Lit.zero⟩

/-- The tuning record of `T0` (R321). -/
def Params.t0Tuning : Tuning :=
  { satA3 := Lit.zero, satPower := Lit.one, lowScale := Lit.zero, blendRatio := Lit.zero,
    lowThresh := Lit.zero, curvePower := Lit.one, kneeThresh := Lit.zero, kneeAmount := Lit.zero,
    dcBias := Lit.zero, outScale := Lit.one, msScale := Lit.one }

/-- The constants `JA_PARAMS[f]` of `T0`: MS0 1, A 1, ALPHA 0, K 1, C 0.1 (R321). -/
def Params.t0Ja : JaParams := ⟨Lit.one, Lit.one, Lit.zero, Lit.one, 0x3FB999999999999A#64⟩

/-- The transparent test configuration `T0` of R321, with the default `NUMLIB`. -/
def Params.t0 : Params :=
  { eqNA := .ten, eqNB := .ten
    eqDesignA := Vector.replicate 12 (Params.flat 3), eqDesignB := Vector.replicate 12 (Params.flat 3)
    shieldDesignA := #v[Params.flat 4, Params.flat 4, Params.flat 3]
    shieldDesignB := #v[Params.flat 4, Params.flat 4, Params.flat 3]
    nDisp := 0, dispBaseA := Lit.zero, dispBaseB := Lit.zero
    tuningA1 := Params.t0Tuning, tuningA2 := Params.t0Tuning
    tuningB1 := Params.t0Tuning, tuningB2 := Params.t0Tuning
    ja1 := Params.t0Ja, ja2 := Params.t0Ja, solver := .zero }

end Sys2Proof
end

