-- ==== Sys2Proof/Machine/Float.lean ====
section
/-! DEFINITION. IEEE 754 binary64 arithmetic, round to nearest, ties to even (spec/00_scope.md R12), and the helper
functions of R14. A finite value is exactly an integer count of units of 2^-1074, so that `+`, `−`, `×`, `/` and `sqrt`
compute on natural numbers and round once, in `F64.roundMag`. -/

namespace Sys2Proof.Machine

/-! ### The parts of a pattern -/

/-- The pattern of +infinity, which is also the least pattern (less the sign) that is not finite. -/
def F64.infPat : Nat := 0x7FF0000000000000

/-- A pattern less its sign bit. -/
def F64.pat (w : Word) : Nat := w.toNat % 2 ^ 63

/-- The sign bit is 1 (R85). -/
def F64.isNeg (w : Word) : Bool := decide (2 ^ 63 ≤ w.toNat)

/-- `w` is a NaN. -/
def F64.isNaN (w : Word) : Bool := decide (F64.infPat < F64.pat w)

/-- `w` is +infinity or −infinity. -/
def F64.isInf (w : Word) : Bool := decide (F64.pat w = F64.infPat)

/-- `isFinite(v)` of R14: neither an infinity nor a NaN. -/
def F64.isFinite (w : Word) : Bool := decide (F64.pat w < F64.infPat)

/-- `w` is +0.0 or −0.0. -/
def F64.isZero (w : Word) : Bool := decide (F64.pat w = 0)

/-- The magnitude of a number, in units of 2^-1074. An infinity has the magnitude 2^2098, above every finite one. -/
def F64.mag (w : Word) : Nat :=
  if F64.pat w / 2 ^ 52 = 0 then F64.pat w
  else (F64.pat w % 2 ^ 52 + 2 ^ 52) <<< (F64.pat w / 2 ^ 52 - 1)

/-- The signed value of a number, in units of 2^-1074. -/
def F64.value (w : Word) : Int := if F64.isNeg w then -(F64.mag w : Int) else (F64.mag w : Int)

/-- The word of a sign and a pattern below 2^63. -/
def F64.pack (neg : Bool) (p : Nat) : Word := BitVec.ofNat 64 (if neg then 2 ^ 63 + p else p)

/-- The NaN the arithmetic returns. R12 fixes no payload; no register and no result ever holds a NaN (R314), so none
is observable (notes/assumptions/5.md, DESIGN CHOICE). -/
def F64.nan : Word := 0x7FF8000000000000#64

/-! ### Rounding -/

/-- The floor of the base-2 logarithm of `n`, for `n < 2^(2^k)`, one bit of the answer at a time; 0 for 0. -/
def F64.ilog2 : Nat → Nat → Nat
  | 0, _ => 0
  | k + 1, n => if n >>> 2 ^ k = 0 then F64.ilog2 k n else 2 ^ k + F64.ilog2 k (n >>> 2 ^ k)

/-- The pattern nearest to `n / 2^j` units, ties to even; `sticky` says that the exact value lies strictly between
`n / 2^j` and `(n + 1) / 2^j`. Beyond the largest finite number the result is infinity (R12). -/
def F64.roundMag (n j : Nat) (sticky : Bool) : Nat :=
  let d := max j (F64.ilog2 16 n - 52)
  let q := n >>> d
  let r := n % 2 ^ d
  let up := decide (2 ^ d < 2 * r) || (decide (2 * r = 2 ^ d) && (sticky || q % 2 == 1))
  min F64.infPat ((d - j) * 2 ^ 52 + (if up then q + 1 else q))

/-! ### The operations of R12 -/

/-- `−v`: the sign bit flipped. -/
def F64.neg (a : Word) : Word := F64.pack (!F64.isNeg a) (F64.pat a)

/-- `abs(v)`: the sign bit cleared. -/
def F64.abs (a : Word) : Word := F64.pack false (F64.pat a)

/-- `a + b`. A sum that is exactly zero is +0.0 unless both operands are negative. -/
def F64.add (a b : Word) : Word :=
  if F64.isNaN a || F64.isNaN b then F64.nan
  else if F64.isInf a then (if F64.isInf b && F64.isNeg a != F64.isNeg b then F64.nan else a)
  else if F64.isInf b then b
  else if F64.value a + F64.value b = 0 then F64.pack (F64.isNeg a && F64.isNeg b) 0
  else F64.pack (decide (F64.value a + F64.value b < 0))
    (F64.roundMag (F64.value a + F64.value b).natAbs 0 false)

/-- `a − b`. -/
def F64.sub (a b : Word) : Word := F64.add a (F64.neg b)

/-- `a × b`. -/
def F64.mul (a b : Word) : Word :=
  if F64.isNaN a || F64.isNaN b then F64.nan
  else if F64.isInf a || F64.isInf b then
    (if F64.isZero a || F64.isZero b then F64.nan else F64.pack (F64.isNeg a != F64.isNeg b) F64.infPat)
  else F64.pack (F64.isNeg a != F64.isNeg b) (F64.roundMag (F64.mag a * F64.mag b) 1074 false)

/-- `a / b`: the quotient to two bits below a unit, and whether anything is left over. -/
def F64.div (a b : Word) : Word :=
  if F64.isNaN a || F64.isNaN b then F64.nan
  else if F64.isInf a then
    (if F64.isInf b then F64.nan else F64.pack (F64.isNeg a != F64.isNeg b) F64.infPat)
  else if F64.isInf b then F64.pack (F64.isNeg a != F64.isNeg b) 0
  else if F64.isZero b then
    (if F64.isZero a then F64.nan else F64.pack (F64.isNeg a != F64.isNeg b) F64.infPat)
  else F64.pack (F64.isNeg a != F64.isNeg b)
    (F64.roundMag ((F64.mag a <<< 1076) / F64.mag b) 2
      (decide ((F64.mag a <<< 1076) % F64.mag b ≠ 0)))

/-- Newton's iteration for the integer square root, from an estimate that is not below it. -/
def F64.isqrtFrom : Nat → Nat → Nat → Nat
  | 0, _, x => x
  | k + 1, n, x => if (x + n / x) / 2 < x then F64.isqrtFrom k n ((x + n / x) / 2) else x

/-- The integer square root of `n < 2^65536`. -/
def F64.isqrt (n : Nat) : Nat :=
  if n = 0 then 0 else F64.isqrtFrom 64 n (2 ^ (F64.ilog2 16 n / 2 + 1))

/-- `sqrt(a)`: the root to two bits below a unit, and whether it is inexact. -/
def F64.sqrt (a : Word) : Word :=
  if F64.isNaN a then F64.nan
  else if F64.isZero a then a
  else if F64.isNeg a then F64.nan
  else if F64.isInf a then a
  else F64.pack false (F64.roundMag (F64.isqrt (F64.mag a <<< 1078)) 2
    (decide (F64.isqrt (F64.mag a <<< 1078) * F64.isqrt (F64.mag a <<< 1078) ≠ F64.mag a <<< 1078)))

/-! ### The comparisons of R12: false on a NaN, and +0.0 equals −0.0 -/

/-- `a < b`. -/
def F64.lt (a b : Word) : Bool :=
  !F64.isNaN a && !F64.isNaN b && decide (F64.value a < F64.value b)

/-- `a <= b`. -/
def F64.le (a b : Word) : Bool :=
  !F64.isNaN a && !F64.isNaN b && decide (F64.value a ≤ F64.value b)

/-- `a == b`; `!=` is its negation, true on a NaN. -/
def F64.eq (a b : Word) : Bool :=
  !F64.isNaN a && !F64.isNaN b && decide (F64.value a = F64.value b)

/-! ### Exact functions of R13 -/

/-- `max(a, b)`. Two zeros of opposite sign: one of them, and the spec does not say which (`Config.zeroTie`). A NaN
operand is returned; no rule takes `max` of one in a reachable state. -/
def F64.max (a b : Word) : Word :=
  if F64.isNaN a then a else if F64.isNaN b then b
  else if F64.lt a b then b
  else if F64.lt b a then a
  else if a = b then a
  else if Config.zeroTie a b then a else b

/-- `min(a, b)`; zeros and NaN as for `F64.max`. -/
def F64.min (a b : Word) : Word :=
  if F64.isNaN a then a else if F64.isNaN b then b
  else if F64.lt a b then a
  else if F64.lt b a then b
  else if a = b then a
  else if Config.zeroTie a b then a else b

/-- `floor(a)`, exact. -/
def F64.floor (a : Word) : Word :=
  if !F64.isFinite a || F64.isZero a then a
  else if F64.isNeg a then F64.pack true (F64.roundMag (((F64.mag a + (2 ^ 1074 - 1)) >>> 1074) <<< 1074) 0 false)
  else F64.pack false (F64.roundMag ((F64.mag a >>> 1074) <<< 1074) 0 false)

/-- The natural number that a finite non-negative binary64 integer is. -/
def F64.toNat (a : Word) : Nat := F64.mag a >>> 1074

/-- The binary64 number nearest to a natural number; exact below 2^53. -/
def F64.ofNat (n : Nat) : Word := F64.pack false (F64.roundMag (n <<< 1074) 0 false)

/-! ### Helper functions of R14 -/

/-- `ftz(v)`: a nonzero value of magnitude below `FTZ_MIN` becomes +0.0 (R14, R411). -/
def ftz (v : Word) : Word :=
  if !F64.eq v Lit.zero && F64.lt (F64.abs v) Config.ftzMin then Lit.zero else v

/-- `guard(c, fb)` of R14. -/
def guardOr (c fb : Word) : Word := if F64.isFinite c then c else fb

/-- `clamp(v, lo, hi)` of R14. -/
def clamp (v lo hi : Word) : Word := F64.min (F64.max v lo) hi

/-- `sgn(v)` of R14. -/
def sgn (v : Word) : Word :=
  if F64.lt Lit.zero v then Lit.one else if F64.lt v Lit.zero then Lit.negOne else Lit.zero

end Sys2Proof.Machine
end

