-- ==== Sys2Proof/Machine/NumLib.lean ====
section
/-! DEFINITION. The library functions of the parameter `NUMLIB` (spec/00_scope.md R13). The default is the correctly
rounded function: an enclosure of the exact value in fixed point is refined until both of its ends round to one
binary64 number. Another library is a free function, held to the properties R13 assumes of every one. -/

namespace Sys2Proof.Machine

/-! ### Fixed-point series: at scale `p`, the number `n` stands for `n / 2^p` -/

/-- The exponential series of `t` from its term of index `i` on, until a term vanishes. -/
def fxExpSeries (p t : Nat) : Nat → Nat → Nat → Nat → Nat
  | 0, _, _, acc => acc
  | k + 1, i, term, acc =>
    if term = 0 then acc else fxExpSeries p t k (i + 1) (term * t / 2 ^ p / (i + 1)) (acc + term)

/-- The exponential of `t`, for `t` below 1. -/
def fxExp (p t : Nat) : Nat := fxExpSeries p t p 0 (2 ^ p) 0

/-- The series of the inverse hyperbolic tangent; `term` is the power of the argument and `t2` its square. -/
def fxAtanhSeries (p t2 : Nat) : Nat → Nat → Nat → Nat → Nat
  | 0, _, _, acc => acc
  | k + 1, i, term, acc =>
    if term = 0 then acc else fxAtanhSeries p t2 k (i + 2) (term * t2 / 2 ^ p) (acc + term / i)

/-- The inverse hyperbolic tangent of `t`, for `t` up to 1/3. -/
def fxAtanh (p t : Nat) : Nat := fxAtanhSeries p (t * t / 2 ^ p) p 1 t 0

/-- The sine or cosine series, two terms at a time: the added and the subtracted terms are summed apart. -/
def fxTrigSeries (p t2 : Nat) : Nat → Nat → Nat → Nat → Nat → Nat
  | 0, _, _, pos, neg => pos - neg
  | k + 1, i, term, pos, neg =>
    if term = 0 then pos - neg
    else
      let next := term * t2 / 2 ^ p / ((i + 1) * (i + 2))
      fxTrigSeries p t2 k (i + 4) (next * t2 / 2 ^ p / ((i + 3) * (i + 4))) (pos + term) (neg + next)

/-- The sine of `t`, for `t` up to π/4. -/
def fxSin (p t : Nat) : Nat := fxTrigSeries p (t * t / 2 ^ p) p 1 t 0 0

/-- The cosine of `t`, for `t` up to π/4. -/
def fxCos (p t : Nat) : Nat := fxTrigSeries p (t * t / 2 ^ p) p 0 (2 ^ p) 0 0

/-- The arctangent series of `1 / m`, two terms at a time; `m2` is `m` squared. -/
def fxAtanInvSeries (m2 : Nat) : Nat → Nat → Nat → Nat → Nat → Nat
  | 0, _, _, pos, neg => pos - neg
  | k + 1, i, term, pos, neg =>
    if term = 0 then pos - neg
    else fxAtanInvSeries m2 k (i + 4) (term / m2 / m2) (pos + term / i) (neg + term / m2 / (i + 2))

/-- π by Machin's formula, 16·atan(1/5) − 4·atan(1/239). -/
def fxPi (p : Nat) : Nat :=
  16 * fxAtanInvSeries 25 p 1 (2 ^ p / 5) 0 0 - 4 * fxAtanInvSeries 57121 p 1 (2 ^ p / 239) 0 0

/-- ln 2 = 2·atanh(1/3). -/
def fxLn2 (p : Nat) : Nat := 2 * fxAtanh p (2 ^ p / 3)

/-! ### Enclosures and the rounding of one -/

/-- An enclosure of a non-negative number: it lies in `[lo / 2^q, hi / 2^q]`. -/
structure Bracket where
  lo : Nat
  hi : Nat
  q : Nat
  deriving DecidableEq, Repr

/-- The pattern nearest to `m / 2^q`, ties to even. -/
def roundScaled (m q : Nat) : Nat :=
  if q ≤ 1074 then F64.roundMag (m <<< (1074 - q)) 0 false else F64.roundMag m (q - 1074) false

/-- The correctly rounded number of a sign and enclosures `f p` of a magnitude: the first precision of the list at
which both ends round alike decides. Past the last, the value is taken as the short number in the middle of the
narrowest enclosure: an exact tie, the one case no precision can decide (notes/assumptions/6.md). -/
def zivRound (neg : Bool) (f : Nat → Bracket) : List Nat → Word
  | [] =>
    let b := f 2240
    let w := F64.ilog2 16 (b.hi - b.lo) + 2
    F64.pack neg (roundScaled ((((b.lo + b.hi) / 2 + 2 ^ (w - 1)) >>> w) <<< w) b.q)
  | p :: ps =>
    let b := f p
    if roundScaled b.lo b.q = roundScaled b.hi b.q then F64.pack neg (roundScaled b.lo b.q)
    else zivRound neg f ps

/-- The precisions that are tried. -/
def zivPrecisions : List Nat := [64, 192, 704, 2240]

/-- A finite magnitude at scale `p`. -/
def fxOfMag (p n : Nat) : Nat := (n <<< p) >>> 1074

/-- The quotient of two enclosed numbers `num ± e` and `den ± e` at scale `p`; nothing above is known when the divisor
may be zero. -/
def bracketDiv (p e num den : Nat) : Bracket :=
  { lo := ((num - e) <<< p) / (den + e)
    hi := if den ≤ e then 1 <<< (p + 2100) else ((num + e) <<< p) / (den - e) + 1
    q := p }

/-- The exponential of `± x` at scale `p`, where `x` is known within `e`. -/
def bracketExp (p e : Nat) (neg : Bool) (x : Nat) : Bracket :=
  let l := fxLn2 p
  if neg then
    let n := (x + l - 1) / l
    let m := fxExp p (n * l - x)
    { lo := m - e, hi := m + e, q := p + n }
  else
    let n := x / l
    let m := fxExp p (x % l)
    { lo := (m - e) <<< n, hi := (m + e) <<< n, q := p }

/-! ### Sine, cosine and tangent -/

/-- A reduced angle: the quadrant, the sine and the cosine within it, their common error and their scale. -/
structure Angle where
  quadrant : Nat
  sin : Nat
  cos : Nat
  err : Nat
  scale : Nat
  deriving DecidableEq, Repr

/-- The reduction of a magnitude by multiples of π/2, with at least `p` good bits of the reduced angle. -/
def reduceAngle (n p : Nat) : Angle :=
  let len := F64.ilog2 16 n + 1
  let sc := p + 64 + (2 * (len - 1074) + (1074 - len))
  let h := fxPi sc / 2
  let x := fxOfMag sc n
  let r := x % h
  let low := decide (2 * r ≤ h)
  let r' := if low then r else h - r
  let a := fxSin sc r'
  let b := fxCos sc r'
  { quadrant := x / h % 4, sin := if low then a else b, cos := if low then b else a
    err := 2 ^ (40 + (len - 1074)), scale := sc }

/-- The enclosure of a number known within `e` at scale `q`. -/
def bracketAround (e q m : Nat) : Bracket := { lo := m - e, hi := m + e, q := q }

/-- The correctly rounded sine; free where there is none, at an infinity or a NaN. -/
def crSin (x : Word) : Word :=
  if !F64.isFinite x then Config.trigEdge .sin x
  else if F64.isZero x then x
  else
    let k := (reduceAngle (F64.mag x) 64).quadrant
    zivRound (F64.isNeg x != decide (2 ≤ k)) (fun p =>
      let g := reduceAngle (F64.mag x) p
      bracketAround g.err g.scale (if k % 2 = 0 then g.sin else g.cos)) zivPrecisions

/-- The correctly rounded cosine; free at an infinity or a NaN. -/
def crCos (x : Word) : Word :=
  if !F64.isFinite x then Config.trigEdge .cos x
  else
    let k := (reduceAngle (F64.mag x) 64).quadrant
    zivRound (k == 1 || k == 2) (fun p =>
      let g := reduceAngle (F64.mag x) p
      bracketAround g.err g.scale (if k % 2 = 0 then g.cos else g.sin)) zivPrecisions

/-- The correctly rounded tangent; free at an infinity or a NaN. -/
def crTan (x : Word) : Word :=
  if !F64.isFinite x then Config.trigEdge .tan x
  else if F64.isZero x then x
  else
    let k := (reduceAngle (F64.mag x) 64).quadrant
    zivRound (F64.isNeg x != (k % 2 == 1)) (fun p =>
      let g := reduceAngle (F64.mag x) p
      if k % 2 = 0 then bracketDiv g.scale g.err g.sin g.cos
      else bracketDiv g.scale g.err g.cos g.sin) zivPrecisions

/-! ### Exponential, hyperbolic tangent and power -/

/-- Above this magnitude `exp` overflows or rounds to zero: 746 in units. -/
def expLimit : Nat := 746 <<< 1074

/-- The correctly rounded exponential. -/
def crExp (x : Word) : Word :=
  if F64.isNaN x then F64.nan
  else if expLimit ≤ F64.mag x then F64.pack false (if F64.isNeg x then 0 else F64.infPat)
  else zivRound false (fun p =>
    bracketExp (p + 64) (2 ^ 40) (F64.isNeg x) (fxOfMag (p + 64) (F64.mag x))) zivPrecisions

/-- The enclosure of `tanh` of a magnitude below 32: `(e^2x − 1) / (e^2x + 1)`. -/
def bracketTanh (n p : Nat) : Bracket :=
  let sc := p + 64 + (1074 - (F64.ilog2 16 n + 1))
  let b := bracketExp sc (2 ^ 40) false (fxOfMag (sc + 1) n)
  bracketDiv sc (b.hi - b.lo) (b.lo - 2 ^ sc) (b.lo + 2 ^ sc)

/-- The correctly rounded hyperbolic tangent; from 32 on it rounds to ±1. The cut at 1 states the bound of R13, which
the correctly rounded value has. A NaN stays a NaN, the model's choice: no correctly rounded value exists there and the
spec states none (notes/assumptions/2.md, DESIGN CHOICE). -/
def crTanh (x : Word) : Word :=
  if F64.isNaN x then F64.nan
  else if F64.isZero x then x
  else if 32 <<< 1074 ≤ F64.mag x then F64.pack (F64.isNeg x) (F64.pat Lit.one)
  else F64.pack (F64.isNeg x)
    (min (F64.pat Lit.one) (F64.pat (zivRound false (bracketTanh (F64.mag x)) zivPrecisions)))

/-- The natural logarithm of a nonzero magnitude at scale `p`: its sign and its size. -/
def fxLn (p n : Nat) : Bool × Nat :=
  let b := F64.ilog2 16 n
  let m := 2 * fxAtanh p (((n - 2 ^ b) <<< p) / (n + 2 ^ b))
  if 1074 ≤ b then (false, (b - 1074) * fxLn2 p + m) else (true, (1074 - b) * fxLn2 p - m)

/-- The size of `y · ln x` at scale `p`, for magnitudes `nx` and `ny`. -/
def fxPowArg (p nx ny : Nat) : Nat := ((fxLn p nx).2 * ny) >>> 1074

/-- `pow(x, y)` for a finite `x > 0` and a finite nonzero `y`. -/
def crPowPos (x y : Word) : Word :=
  let len := F64.ilog2 16 (F64.mag y) + 1
  let falls := (fxLn 128 (F64.mag x)).1 != F64.isNeg y
  if x = Lit.one then Lit.one
  else if 1074 + 64 < len then F64.pack false (if falls then 0 else F64.infPat)
  else if 746 <<< 256 ≤ fxPowArg 256 (F64.mag x) (F64.mag y) then
    F64.pack false (if falls then 0 else F64.infPat)
  else zivRound false (fun p =>
    let sc := p + 64 + (len - 1074)
    bracketExp sc (2 ^ (40 + (len - 1074))) falls (fxPowArg sc (F64.mag x) (F64.mag y))) zivPrecisions

/-- A finite number is an odd integer. -/
def F64.isOddInt (y : Word) : Bool :=
  F64.isFinite y && F64.mag y % 2 ^ 1074 == 0 && (F64.mag y >>> 1074) % 2 == 1

/-- A finite number is an integer. -/
def F64.isInt (y : Word) : Bool := F64.isFinite y && F64.mag y % 2 ^ 1074 == 0

/-- `pow` of the magnitude of the base: the limits at 0, at infinity and at an infinite exponent, or `crPowPos`. -/
def crPowAbs (x y : Word) : Word :=
  if x = Lit.one then Lit.one
  else if F64.isInf y then F64.pack false (if F64.lt x Lit.one == F64.isNeg y then F64.infPat else 0)
  else if F64.isZero x then F64.pack false (if F64.isNeg y then F64.infPat else 0)
  else if F64.isInf x then F64.pack false (if F64.isNeg y then 0 else F64.infPat)
  else crPowPos x y

/-- The correctly rounded power, with the usual values at the edges: 1 for a zero exponent, NaN for a negative base
and a fractional exponent, an odd integer exponent keeping the base's sign. -/
def crPow (x y : Word) : Word :=
  if F64.isZero y then Lit.one
  else if x = Lit.one then Lit.one
  else if F64.isNaN x || F64.isNaN y then F64.nan
  else if F64.isNeg x && !F64.isZero x && F64.isFinite x && F64.isFinite y && !F64.isInt y then F64.nan
  else if F64.isNeg x && F64.isOddInt y then F64.neg (crPowAbs (F64.abs x) y)
  else crPowAbs (F64.abs x) y

/-! ### The functions of the parameter -/

/-- `tan` of the chosen library. -/
def NumLibChoice.tan (L : NumLibChoice) (x : Word) : Word :=
  match L with
  | .correctlyRounded => crTan x
  | .platform id => Config.platformLib id .tan x Lit.zero

/-- A value of a library's `tanh`, cut to the magnitude 1 that R13 assumes; a value within it keeps its sign and is left as
it is. A NaN becomes 1.0, the model's choice (notes/assumptions/2.md, DESIGN CHOICE). -/
def tanhBound (t : Word) : Word := if F64.le (F64.abs t) Lit.one then t else Lit.one

/-- `tanh` of the chosen library: odd, and at most 1 in magnitude (R13). -/
def NumLibChoice.tanh (L : NumLibChoice) (x : Word) : Word :=
  match L with
  | .correctlyRounded => crTanh x
  | .platform id =>
    if F64.isNeg x then F64.neg (tanhBound (Config.platformLib id .tanh (F64.abs x) Lit.zero))
    else tanhBound (Config.platformLib id .tanh x Lit.zero)

/-- `pow` of the chosen library: `pow(x, 0.0) = 1.0` for every `x` (R13). -/
def NumLibChoice.pow (L : NumLibChoice) (x y : Word) : Word :=
  match L with
  | .correctlyRounded => crPow x y
  | .platform id => if F64.isZero y then Lit.one else Config.platformLib id .pow x y

/-- A negative number from 2^-53 to 745 in magnitude: where the correctly rounded `exp` lies in (0, 1). R13 asks for that
where the magnitude is "not too large"; the bounds are the model's choice (notes/assumptions/2.md, DESIGN CHOICE). -/
def expModerate (x : Word) : Bool :=
  F64.isNeg x && decide (1 <<< 1021 ≤ F64.mag x) && decide (F64.mag x ≤ 745 <<< 1074)

/-- A value of a library's `exp`, held inside (0, 1); a library with the property of R13 is left as it is. -/
def expInside (e : Word) : Word := if F64.lt Lit.zero e && F64.lt e Lit.one then e else Lit.half

/-- `exp` of the chosen library: in (0, 1) for a moderate negative number (R13). -/
def NumLibChoice.exp (L : NumLibChoice) (x : Word) : Word :=
  match L with
  | .correctlyRounded => crExp x
  | .platform id =>
    if expModerate x then expInside (Config.platformLib id .exp x Lit.zero)
    else Config.platformLib id .exp x Lit.zero

/-- `sin` of the chosen library. -/
def NumLibChoice.sin (L : NumLibChoice) (x : Word) : Word :=
  match L with
  | .correctlyRounded => crSin x
  | .platform id => Config.platformLib id .sin x Lit.zero

/-- `cos` of the chosen library. -/
def NumLibChoice.cos (L : NumLibChoice) (x : Word) : Word :=
  match L with
  | .correctlyRounded => crCos x
  | .platform id => Config.platformLib id .cos x Lit.zero

end Sys2Proof.Machine
end

