-- ==== Sys2Proof/Machine/State.lean ====
section
/-! DEFINITION. The state of one BQC-ATR instance (spec/10_state.md R30 to R51, spec/20_memory.md R84, R91) as plain
data, the reasons a step can stop, and the state after hardware reset (spec/70_reset_and_hazards.md R430). -/

namespace Sys2Proof.Machine

/-! ### Why a step stops -/

/-- The reasons a step can stop with a fault of the model. The block's own faults (R401) are not among them: they are
a state of the block, and the command that takes one has a next state (R402). -/
inductive Fault where
  /-- Raised by the host-window port for an access of a width, alignment or offset R86 does not admit. "The model
  refuses such an access (stuck)" (R86, R400 class 4, R416); no later state is defined. Safe: the model stops where the
  spec defines nothing. -/
  | inadmissibleAccess (offset width : Nat)
  deriving DecidableEq, Repr

/-- The reasons a step can be refused. -/
inductive Refusal where
  /-- Raised only by an arm of `exec` for an instruction without a meaning; every instruction has one. Safe: the model
  stops. -/
  | notModelled (mnemonic : String)
  deriving DecidableEq, Repr

/-! ### The parts of the state -/

/-- `STATE` of R34. -/
inductive BlockState where
  | uninitialized
  | ready
  deriving DecidableEq, Repr

/-- The fault codes 1 to 6 of R401; code 0, NONE, is the absence of one. -/
inductive FaultCode where
  | illegalCmd
  | unconfigured
  | badRate
  | badDesign
  | badOperand
  | badAddr
  deriving DecidableEq, Repr

/-- The outcome of the last completed command, `STATUS.ACK` (R33); the value 3 is never produced. -/
inductive Ack where
  | ok
  | fault
  | refused
  deriving DecidableEq, Repr

/-- The five coefficients of a biquad section (R38). -/
structure Coeffs where
  b0 : Word
  b1 : Word
  b2 : Word
  a1 : Word
  a2 : Word
  deriving DecidableEq, Repr

/-- A biquad section record `SEC`: its coefficients and its two state registers (R38). -/
structure Biquad where
  co : Coeffs
  z1 : Word
  z2 : Word
  deriving DecidableEq, Repr

/-- A dispersive allpass stage `DISP[k]` (R40). -/
structure DispStage where
  freq : Word
  c : Word
  z : Word
  deriving DecidableEq, Repr

/-- The ring memory (R91): (byte address, byte) pairs in strictly rising order of address, no byte 0 listed. Byte `8a + k`
is byte `k`, little-endian, of the word at register-space address `a` (notes/assumptions/7.md). An unlisted byte
reads 0, its value after hardware reset (R430). -/
abbrev Memory := List Host.Cell

/-- One thing the outside world does to the block through its ports (R90): a host access, by its byte offset in the host
window, or a pulse of `rst_n`. A write carries its byte lanes, lowest offset first (R85). -/
inductive HostEvent where
  | write (offset : Nat) (lanes : List Byte)
  | read (offset : Nat) (width : Nat)
  | resetPulse
  deriving DecidableEq, Repr

/-- The azimuth set that one recomputation derives (R261). -/
structure AzimuthSet where
  delay : Word
  int : Fin 16
  frac : Word
  coeff : Word
  deriving DecidableEq, Repr

/-- The coefficient sets that depend on the sample rate alone, recomputed at CONFIGURE only (R348, scope FULL). -/
structure RateSet where
  eqa : List Coeffs
  eqb : List Coeffs
  dcb : List Coeffs
  blendAtt : Word
  blendRel : Word
  fadeInc : Word
  deriving DecidableEq, Repr

/-- The coefficient sets that depend on the profile or the formula, recomputed in both scopes of R348; `disp` holds
the frequency and the coefficient of each stage. -/
structure ProfileSet where
  shield : List Coeffs
  shieldNorm : Word
  disp : List (Word × Word)
  azimuth : AzimuthSet
  tuning : Tuning
  deriving DecidableEq, Repr

/-! ### The state -/

/-- One BQC-ATR instance. The last three fields are the model's own: the implementation's parameters, which no step
changes, and the two sides of the host port. -/
structure State where
  /-- host window `CMD`, the last word written (R84, R87) -/
  cmd : CmdWord
  /-- host window `OP0` (R30, R84) -/
  op0 : Word
  /-- host window `OP1` (R30, R84) -/
  op1 : Word
  /-- host window `RES` (R30, R84) -/
  res : Word
  /-- `STATE` (R34), read as STATUS[0] -/
  blockState : BlockState
  /-- `FAULT` and `FCODE` (R33, R402): none when FAULT = 0, else the code of the first fault -/
  fault : Option FaultCode
  /-- `ACK` (R33) -/
  ack : Ack
  /-- `FS`, 0x002 (R35) -/
  fs : Word
  /-- `BIAS`, 0x003 (R35) -/
  bias : Word
  /-- `INGAIN`, 0x004 (R35) -/
  ingain : Word
  /-- `PROFILE_A` (R35): `A` is 1 -/
  profile : Profile
  /-- `FORMULA` (R35) -/
  formula : Formula
  /-- the active tuning registers, 0x005 to 0x00F (R37) -/
  tuning : Tuning
  /-- bank `SHIELD`, three sections, 0x100 (R39) -/
  shield : List Biquad
  /-- bank `EQA`, `EQ_N[A]` sections, 0x200 (R39) -/
  eqa : List Biquad
  /-- bank `EQB`, `EQ_N[B]` sections, 0x300 (R39) -/
  eqb : List Biquad
  /-- bank `DCB`, two sections, 0x400 (R39) -/
  dcb : List Biquad
  /-- `SHIELD_NORM`, 0x016 (R39) -/
  shieldNorm : Word
  /-- bank `DISP`, `N_DISP` stages, 0x500 (R40) -/
  disp : List DispStage
  /-- `SAT_ENV`, 0x010 (R41) -/
  satEnv : Word
  /-- `BLEND_ENV`, 0x011 (R41) -/
  blendEnv : Word
  /-- `BLEND_ATT`, 0x012 (R41) -/
  blendAtt : Word
  /-- `BLEND_REL`, 0x013 (R41) -/
  blendRel : Word
  /-- `FADE_GAIN`, 0x014 (R44) -/
  fadeGain : Word
  /-- `FADE_INC`, 0x015 (R44) -/
  fadeInc : Word
  /-- `HYST_H`, 0x01D (R42) -/
  hystH : Word
  /-- `HYST_M`, 0x01E (R42) -/
  hystM : Word
  /-- `AZ_DELAY`, 0x017 (R43) -/
  azDelay : Word
  /-- `AZ_INT`, 0x018 (R43) -/
  azInt : Fin 16
  /-- `AZ_FRAC`, 0x019 (R43) -/
  azFrac : Word
  /-- `AZ_COEFF`, 0x01A (R43) -/
  azCoeff : Word
  /-- `AZ_Z`, 0x01B (R43) -/
  azZ : Word
  /-- `AZ_WIDX`, 0x01C (R43) -/
  azWidx : Fin 16
  /-- `RING[0..15]`, 0x600 (R43, R91) -/
  mem : Memory
  /-- the parameters of the implementation (R7): the argument the spec's model takes -/
  par : Params
  /-- the host accesses and reset pulses the block has not taken yet, oldest first (R444) -/
  pending : List HostEvent
  /-- the byte lanes the last host read returned, lowest offset first (R85, R87) -/
  rdata : List Byte
  deriving DecidableEq, Repr

/-! ### Hardware reset -/

/-- A section after hardware reset (R39). -/
def Biquad.zero : Biquad :=
  { co := ⟨Lit.zero, Lit.zero, Lit.zero, Lit.zero, Lit.zero⟩, z1 := Lit.zero, z2 := Lit.zero }

/-- A dispersive stage after hardware reset (R40). -/
def DispStage.zero : DispStage := ⟨Lit.zero, Lit.zero, Lit.zero⟩

/-- The tuning registers after hardware reset (R37). -/
def Tuning.zero : Tuning :=
  { satA3 := Lit.zero, satPower := Lit.zero, lowScale := Lit.zero, blendRatio := Lit.zero,
    lowThresh := Lit.zero, curvePower := Lit.zero, kneeThresh := Lit.zero, kneeAmount := Lit.zero,
    dcBias := Lit.zero, outScale := Lit.zero, msScale := Lit.zero }

/-- Every element at the value R430 gives it after hardware reset, in an implementation with parameters `P`. The host
port is idle: no access waits and none has been answered (notes/assumptions/8.md). -/
def State.resetWith (P : Params) : State :=
  { cmd := 0#32, op0 := 0#64, op1 := 0#64, res := 0#64
    blockState := .uninitialized, fault := none, ack := .ok
    fs := Lit.zero, bias := Lit.one, ingain := Lit.one, profile := .A, formula := .f1
    tuning := Tuning.zero
    shield := List.replicate 3 Biquad.zero
    eqa := List.replicate (P.eqN .A) Biquad.zero
    eqb := List.replicate (P.eqN .B) Biquad.zero
    dcb := List.replicate Config.dcbN Biquad.zero
    shieldNorm := Lit.zero
    disp := List.replicate P.nDisp.val DispStage.zero
    satEnv := Lit.zero, blendEnv := Lit.zero, blendAtt := Lit.zero, blendRel := Lit.zero
    fadeGain := Lit.zero, fadeInc := Lit.zero, hystH := Lit.zero, hystM := Lit.zero
    azDelay := Lit.zero, azInt := 0, azFrac := Lit.zero, azCoeff := Lit.zero
    azZ := Lit.zero, azWidx := 0, mem := []
    par := P, pending := [], rdata := [] }

/-- The machine right after hardware reset (R430), with this implementation's parameters. -/
def State.reset : State := State.resetWith Config.params

end Sys2Proof.Machine
end

