-- ==== Sys2Proof/Machine/Ops.lean ====
section
/-! DEFINITION. The operations every command shares: the ring memory, taking a fault (spec/60_exceptions.md R402), the
hardware reset that alone leaves one (R406, R430), and the execution frame of a command (spec/47_commands.md R340). -/

namespace Sys2Proof.Machine

/-! ### The ring memory (R91) -/

/-- What an unlisted byte reads as: the ring is all +0.0 after hardware reset (R430). -/
def memDefault : Byte := 0#8

/-- The byte at an address. -/
def Memory.readByte : Memory → Nat → Byte
  | [], _ => memDefault
  | c :: rest, a => if c.1 = a then c.2 else Memory.readByte rest a

/-- Writing a byte, keeping the canonical form. -/
def Memory.writeByte : Memory → Nat → Byte → Memory
  | [], a, b => if b = memDefault then [] else [(a, b)]
  | c :: rest, a, b =>
    if a < c.1 then (if b = memDefault then c :: rest else (a, b) :: c :: rest)
    else if a = c.1 then (if b = memDefault then rest else (a, b) :: rest)
    else c :: Memory.writeByte rest a b

/-- The canonical form: addresses strictly rising, no byte listed at its default. -/
def Memory.wf : Memory → Bool
  | [] => true
  | c :: rest => decide (c.2 ≠ memDefault) && rest.all (fun d => decide (c.1 < d.1)) && Memory.wf rest

/-- The `k` bytes from an address on, lowest address first. -/
def Memory.readBytes (m : Memory) : Nat → Nat → List Byte
  | 0, _ => []
  | k + 1, a => Memory.readByte m a :: Memory.readBytes m k (a + 1)

/-- Writing bytes from an address on, lowest address first. -/
def Memory.writeBytes (m : Memory) : Nat → List Byte → Memory
  | _, [] => m
  | a, b :: rest => Memory.writeBytes (Memory.writeByte m a b) (a + 1) rest

/-- The byte address of `RING[i]`: the ring stands at register-space address 0x600, eight bytes a word (R43). -/
def ringAddr (i : Fin 16) : Nat := 8 * (0x600 + i.val)

/-- `RING[i]`. -/
def ringRead (m : Memory) (i : Fin 16) : Word :=
  BitVec.ofNat 64 (ofLanes (Memory.readBytes m 8 (ringAddr i)))

/-- `RING[i] <- v`. -/
def ringWrite (m : Memory) (i : Fin 16) (v : Word) : Memory :=
  Memory.writeBytes m (ringAddr i) (toLanes 8 v.toNat)

/-! ### Taking a fault, and leaving it -/

/-- `raise Fault(code)` of R402, on the state from before the command: nothing of the command is kept, the first fault
wins, and ACK is FAULT. Control goes nowhere: the block goes on accepting host accesses. -/
def raiseFault (code : FaultCode) (s : State) : State :=
  { s with fault := some (s.fault.getD code), ack := .fault }

/-- A word other than NOP and RD_REG while a fault is pending (R404): ACK is REFUSED and nothing else happens. -/
def refuse (s : State) : State := { s with ack := .refused }

/-- The end of a command that raised no fault (R340). -/
def complete (s : State) : State := { s with ack := .ok }

/-- Hardware reset (R430), the only way out of a pending fault (R406). The parameters are not state and stay; the host's
side of the port, what it has queued and what it last read, is not the block's (notes/assumptions/8.md). -/
def hwReset (s : State) : State :=
  { State.resetWith s.par with pending := s.pending, rdata := s.rdata }

/-! ### The execution frame (R340) -/

/-- A command other than NOP and RD_REG: refused while a fault is pending; else its rule runs, and either it completes
or the fault it raises is taken. -/
def framed (s : State) (body : State → Except FaultCode State) : State :=
  if s.fault.isSome then refuse s
  else
    match body s with
    | .ok t => complete t
    | .error code => raiseFault code s

/-- A word that spells no command (R107, R404, R405). -/
def illegalCommand (s : State) : State := framed s (fun _ => .error .illegalCmd)

/-! ### Committing recomputed coefficients (R348) -/

/-- New coefficients for a bank. The state registers stay (R342, R347). -/
def commitBank : List Coeffs → List Biquad → List Biquad
  | [], _ => []
  | c :: cs, [] => { co := c, z1 := Lit.zero, z2 := Lit.zero } :: commitBank cs []
  | c :: cs, b :: bs => { b with co := c } :: commitBank cs bs

/-- New frequencies and coefficients for the dispersive bank. The state registers stay. -/
def commitDisp : List (Word × Word) → List DispStage → List DispStage
  | [], _ => []
  | c :: cs, [] => { freq := c.1, c := c.2, z := Lit.zero } :: commitDisp cs []
  | c :: cs, d :: ds => { d with freq := c.1, c := c.2 } :: commitDisp cs ds

/-- Writing the sets that depend on the sample rate alone. -/
def commitRate (r : RateSet) (s : State) : State :=
  { s with
    eqa := commitBank r.eqa s.eqa
    eqb := commitBank r.eqb s.eqb
    dcb := commitBank r.dcb s.dcb
    blendAtt := r.blendAtt
    blendRel := r.blendRel
    fadeInc := r.fadeInc }

/-- Writing the sets that depend on the profile or the formula, the tuning load of R349 among them. -/
def commitProfile (p : ProfileSet) (s : State) : State :=
  { s with
    shield := commitBank p.shield s.shield
    shieldNorm := p.shieldNorm
    disp := commitDisp p.disp s.disp
    azDelay := p.azimuth.delay
    azInt := p.azimuth.int
    azFrac := p.azimuth.frac
    azCoeff := p.azimuth.coeff
    tuning := p.tuning }

/-! ### The RESET of the units (R46 c) -/

/-- `BQ_RESET` (R142): the state registers become +0.0 and the coefficients stay. -/
def bqReset (b : Biquad) : Biquad := { b with z1 := Lit.zero, z2 := Lit.zero }

/-- `BANK_RESET` (R153). -/
def bankReset (bank : List Biquad) : List Biquad := bank.map bqReset

/-- `AP_RESET` (R183). -/
def apReset (d : DispStage) : DispStage := { d with z := Lit.zero }

/-- Every signal-state element of R46 c at zero, and nothing else changed (R343). -/
def zeroSignal (s : State) : State :=
  { s with
    shield := bankReset s.shield
    eqa := bankReset s.eqa
    eqb := bankReset s.eqb
    dcb := bankReset s.dcb
    disp := s.disp.map apReset
    satEnv := Lit.zero
    blendEnv := Lit.zero
    hystH := Lit.zero
    hystM := Lit.zero
    mem := []
    azZ := Lit.zero
    azWidx := 0
    fadeGain := Lit.zero }

end Sys2Proof.Machine
end

