-- ==== Sys2Proof/Machine/Flags.lean ====
section
/-! DEFINITION. The STATUS word (spec/10_state.md R33) and the `fault_o` output (spec/60_exceptions.md R408): views of the
state. The block has no condition codes and no arithmetic flags. -/

namespace Sys2Proof.Machine

/-- A bit as a number. -/
def bit (b : Bool) : Nat := if b then 1 else 0

/-- `FCODE` of R401: 0 when no fault is pending. -/
def fcode : Option FaultCode → Nat
  | none => 0
  | some .illegalCmd => 1
  | some .unconfigured => 2
  | some .badRate => 3
  | some .badDesign => 4
  | some .badOperand => 5
  | some .badAddr => 6

/-- `ACK` of R33. -/
def ackCode : Ack → Nat
  | .ok => 0
  | .fault => 1
  | .refused => 2

/-- READY: the block is in state Ready. -/
def State.isReady (s : State) : Bool := s.blockState == .ready

/-- FADE_DONE: `FADE_GAIN` == 1.0. -/
def State.fadeDone (s : State) : Bool := F64.eq s.fadeGain Lit.one

/-- The 64-bit STATUS word of R33; its reserved bits [3:2], [11] and [63:14] read 0. -/
def statusWord (s : State) : Word :=
  BitVec.ofNat 64
    (bit s.isReady + 2 * bit s.fault.isSome + 16 * fcode s.fault + 256 * bit (s.profile == .A)
      + 512 * bit (s.formula == .f2) + 1024 * bit s.fadeDone + 4096 * ackCode s.ack)

/-- The `fault_o` output: equal to STATUS.FAULT at all times (R408). -/
def faultOut (s : State) : Bool := s.fault.isSome

end Sys2Proof.Machine
end

