-- ==== Sys2Proof/Machine/Operands.lean ====
section
/-! DEFINITION. Where a command's operands come from: the host-window operand registers (spec/30_encoding.md R104), the
formula of format F (R105), and the register space that RD_REG addresses (spec/10_state.md R48, spec/20_memory.md R81 to
R83). -/

namespace Sys2Proof.Machine

/-! ### Operand registers (R104): read, never changed -/

/-- CONFIGURE's sample rate in Hz. -/
def opSampleRate (s : State) : Word := s.op0

/-- SET_PROFILE's bias strength. -/
def opBias (s : State) : Word := s.op0

/-- SET_PROFILE's input gain, a linear factor (D48). -/
def opGain (s : State) : Word := s.op1

/-- The input sample of PROCESS and PROCESS2. -/
def opSample (s : State) : Word := s.op0

/-- A calibration command's new register value. -/
def opValue (s : State) : Word := s.op0

/-! ### The register space (R48) -/

/-- The fields of a biquad section, by the offset `j` of R39. -/
inductive SecField where
  | b0
  | b1
  | b2
  | a1
  | a2
  | z1
  | z2
  deriving DecidableEq, Repr

/-- The fields of a dispersive stage, by the offset of R40. -/
inductive DispField where
  | freq
  | c
  | z
  deriving DecidableEq, Repr

/-- The elements that the register-space map of R48 names. -/
inductive RegName where
  | id
  | status
  | fs
  | bias
  | ingain
  | satA3
  | satPower
  | lowScale
  | blendRatio
  | lowThresh
  | curvePower
  | kneeThresh
  | kneeAmount
  | dcBias
  | outScale
  | msScale
  | satEnv
  | blendEnv
  | blendAtt
  | blendRel
  | fadeGain
  | fadeInc
  | shieldNorm
  | azDelay
  | azInt
  | azFrac
  | azCoeff
  | azZ
  | azWidx
  | hystH
  | hystM
  | eqNA
  | eqNB
  | nDisp
  | ringSize
  | shield (sec : Nat) (j : SecField)
  | eqa (sec : Nat) (j : SecField)
  | eqb (sec : Nat) (j : SecField)
  | dcb (sec : Nat) (j : SecField)
  | disp (k : Nat) (j : DispField)
  | ring (i : Nat)
  deriving DecidableEq, Repr

/-- The offset of a section field (R39). -/
def SecField.offset : SecField → Nat
  | .b0 => 0
  | .b1 => 1
  | .b2 => 2
  | .a1 => 3
  | .a2 => 4
  | .z1 => 5
  | .z2 => 6

/-- The section field at an offset; offset 7 is unmapped (R39). -/
def secFieldAt : Nat → Option SecField
  | 0 => some .b0
  | 1 => some .b1
  | 2 => some .b2
  | 3 => some .a1
  | 4 => some .a2
  | 5 => some .z1
  | 6 => some .z2
  | _ => none

/-- The offset of a stage field (R40). -/
def DispField.offset : DispField → Nat
  | .freq => 0
  | .c => 1
  | .z => 2

/-- The stage field at an offset; offset 3 is unmapped (R40). -/
def dispFieldAt : Nat → Option DispField
  | 0 => some .freq
  | 1 => some .c
  | 2 => some .z
  | _ => none

/-- The register-space address of an element (R31, R33, R35, R37, R39 to R45, R48). -/
def RegName.addr : RegName → Nat
  | .id => 0x000
  | .status => 0x001
  | .fs => 0x002
  | .bias => 0x003
  | .ingain => 0x004
  | .satA3 => 0x005
  | .satPower => 0x006
  | .lowScale => 0x007
  | .blendRatio => 0x008
  | .lowThresh => 0x009
  | .curvePower => 0x00A
  | .kneeThresh => 0x00B
  | .kneeAmount => 0x00C
  | .dcBias => 0x00D
  | .outScale => 0x00E
  | .msScale => 0x00F
  | .satEnv => 0x010
  | .blendEnv => 0x011
  | .blendAtt => 0x012
  | .blendRel => 0x013
  | .fadeGain => 0x014
  | .fadeInc => 0x015
  | .shieldNorm => 0x016
  | .azDelay => 0x017
  | .azInt => 0x018
  | .azFrac => 0x019
  | .azCoeff => 0x01A
  | .azZ => 0x01B
  | .azWidx => 0x01C
  | .hystH => 0x01D
  | .hystM => 0x01E
  | .eqNA => 0x020
  | .eqNB => 0x021
  | .nDisp => 0x022
  | .ringSize => 0x023
  | .shield sec j => 0x100 + 8 * sec + j.offset
  | .eqa sec j => 0x200 + 8 * sec + j.offset
  | .eqb sec j => 0x300 + 8 * sec + j.offset
  | .dcb sec j => 0x400 + 8 * sec + j.offset
  | .disp k j => 0x500 + 4 * k + j.offset
  | .ring i => 0x600 + i

/-- The element whose address is `a`, before the bounds of the banks are checked; none in the gaps of R48. -/
def regNameAt (a : Nat) : Option RegName :=
  if a < 0x100 then
    match a with
    | 0x000 => some .id
    | 0x001 => some .status
    | 0x002 => some .fs
    | 0x003 => some .bias
    | 0x004 => some .ingain
    | 0x005 => some .satA3
    | 0x006 => some .satPower
    | 0x007 => some .lowScale
    | 0x008 => some .blendRatio
    | 0x009 => some .lowThresh
    | 0x00A => some .curvePower
    | 0x00B => some .kneeThresh
    | 0x00C => some .kneeAmount
    | 0x00D => some .dcBias
    | 0x00E => some .outScale
    | 0x00F => some .msScale
    | 0x010 => some .satEnv
    | 0x011 => some .blendEnv
    | 0x012 => some .blendAtt
    | 0x013 => some .blendRel
    | 0x014 => some .fadeGain
    | 0x015 => some .fadeInc
    | 0x016 => some .shieldNorm
    | 0x017 => some .azDelay
    | 0x018 => some .azInt
    | 0x019 => some .azFrac
    | 0x01A => some .azCoeff
    | 0x01B => some .azZ
    | 0x01C => some .azWidx
    | 0x01D => some .hystH
    | 0x01E => some .hystM
    | 0x020 => some .eqNA
    | 0x021 => some .eqNB
    | 0x022 => some .nDisp
    | 0x023 => some .ringSize
    | _ => none
  else if a < 0x200 then (secFieldAt (a % 8)).map (.shield ((a - 0x100) / 8))
  else if a < 0x300 then (secFieldAt (a % 8)).map (.eqa ((a - 0x200) / 8))
  else if a < 0x400 then (secFieldAt (a % 8)).map (.eqb ((a - 0x300) / 8))
  else if a < 0x500 then (secFieldAt (a % 8)).map (.dcb ((a - 0x400) / 8))
  else if a < 0x600 then (dispFieldAt (a % 4)).map (.disp ((a - 0x500) / 4))
  else if a < 0x610 then some (.ring (a - 0x600))
  else none

/-- A field of a section. -/
def secFieldValue (b : Biquad) : SecField → Word
  | .b0 => b.co.b0
  | .b1 => b.co.b1
  | .b2 => b.co.b2
  | .a1 => b.co.a1
  | .a2 => b.co.a2
  | .z1 => b.z1
  | .z2 => b.z2

/-- A field of a dispersive stage. -/
def dispFieldValue (d : DispStage) : DispField → Word
  | .freq => d.freq
  | .c => d.c
  | .z => d.z

/-- `zext_64` of an integer register (R81). -/
def intReg (n : Nat) : Word := BitVec.ofNat 64 n

/-- The 64-bit value of an element: a binary64 pattern unchanged, or an integer zero-extended (R81). None for a section,
stage or ring word at or beyond its bank's count (R83). -/
def regValue (s : State) : RegName → Option Word
  | .id => some Config.idConstant
  | .status => some (statusWord s)
  | .fs => some s.fs
  | .bias => some s.bias
  | .ingain => some s.ingain
  | .satA3 => some s.tuning.satA3
  | .satPower => some s.tuning.satPower
  | .lowScale => some s.tuning.lowScale
  | .blendRatio => some s.tuning.blendRatio
  | .lowThresh => some s.tuning.lowThresh
  | .curvePower => some s.tuning.curvePower
  | .kneeThresh => some s.tuning.kneeThresh
  | .kneeAmount => some s.tuning.kneeAmount
  | .dcBias => some s.tuning.dcBias
  | .outScale => some s.tuning.outScale
  | .msScale => some s.tuning.msScale
  | .satEnv => some s.satEnv
  | .blendEnv => some s.blendEnv
  | .blendAtt => some s.blendAtt
  | .blendRel => some s.blendRel
  | .fadeGain => some s.fadeGain
  | .fadeInc => some s.fadeInc
  | .shieldNorm => some s.shieldNorm
  | .azDelay => some s.azDelay
  | .azInt => some (intReg s.azInt.val)
  | .azFrac => some s.azFrac
  | .azCoeff => some s.azCoeff
  | .azZ => some s.azZ
  | .azWidx => some (intReg s.azWidx.val)
  | .hystH => some s.hystH
  | .hystM => some s.hystM
  | .eqNA => some (intReg (s.par.eqN .A))
  | .eqNB => some (intReg (s.par.eqN .B))
  | .nDisp => some (intReg s.par.nDisp.val)
  | .ringSize => some (intReg Config.ringSize)
  | .shield sec j => s.shield[sec]?.map (secFieldValue · j)
  | .eqa sec j => s.eqa[sec]?.map (secFieldValue · j)
  | .eqb sec j => s.eqb[sec]?.map (secFieldValue · j)
  | .dcb sec j => s.dcb[sec]?.map (secFieldValue · j)
  | .disp k j => s.disp[k]?.map (dispFieldValue · j)
  | .ring i => if h : i < 16 then some (ringRead s.mem ⟨i, h⟩) else none

/-- `reg[a]` (R81), or none where R48 leaves `a` unmapped (R83). The read changes nothing. -/
def regRead (s : State) (a : Nat) : Option Word := (regNameAt a).bind (regValue s)

end Sys2Proof.Machine
end

