-- ==== Sys2Proof/Machine/Calibration.lean ====
section
/-! DEFINITION. The meanings of the eight calibration commands (spec/47_commands.md, section 4, R350 to R357): each writes
one tuning register from OP0, accepted in both states, and any finite value will do. -/

namespace Sys2Proof.Machine

/-- The form `CAL(REG)`: `put v t` is the tuning `t` with the command's register at `v`. -/
def calibrate (put : Word → Tuning → Tuning) (s : State) : Except FaultCode State :=
  if F64.isFinite (opValue s) then .ok { s with tuning := put (opValue s) s.tuning }
  else .error .badOperand

/-- CAL_SAT_A3 (R350). -/
def execCalSatA3 (s : State) : Host.Outcome State Fault Refusal :=
  .next (framed s (calibrate (fun v t => { t with satA3 := v })))

/-- CAL_POWER (R351). -/
def execCalPower (s : State) : Host.Outcome State Fault Refusal :=
  .next (framed s (calibrate (fun v t => { t with satPower := v })))

/-- CAL_LOW_SCALE (R352). -/
def execCalLowScale (s : State) : Host.Outcome State Fault Refusal :=
  .next (framed s (calibrate (fun v t => { t with lowScale := v })))

/-- CAL_BLEND_RATIO (R353). -/
def execCalBlendRatio (s : State) : Host.Outcome State Fault Refusal :=
  .next (framed s (calibrate (fun v t => { t with blendRatio := v })))

/-- CAL_LOW_THRESH (R354). -/
def execCalLowThresh (s : State) : Host.Outcome State Fault Refusal :=
  .next (framed s (calibrate (fun v t => { t with lowThresh := v })))

/-- CAL_CURVE_POWER (R355). -/
def execCalCurvePower (s : State) : Host.Outcome State Fault Refusal :=
  .next (framed s (calibrate (fun v t => { t with curvePower := v })))

/-- CAL_KNEE_THRESH (R356). -/
def execCalKneeThresh (s : State) : Host.Outcome State Fault Refusal :=
  .next (framed s (calibrate (fun v t => { t with kneeThresh := v })))

/-- CAL_KNEE_AMOUNT (R357). -/
def execCalKneeAmount (s : State) : Host.Outcome State Fault Refusal :=
  .next (framed s (calibrate (fun v t => { t with kneeAmount := v })))

end Sys2Proof.Machine
end

