-- ==== Sys2Proof/Machine/Biquad.lean ====
section
/-! DEFINITION. Biquad sections and cascades in transposed direct form II (spec/40_biquad.md R140 to R158): the difference
equation, the DC gain, the design of a section, the bank as a guarded stage, the machine equalizer and the DC blocker. -/

namespace Sys2Proof.Machine

/-! ### The section -/

/-- `BQ_PROCESS` (R141): the output and the candidate new `z1` and `z2`; nothing is written. -/
def bqProcess (b : Biquad) (x : Word) : Word × Word × Word :=
  let u := ftz x
  let y := F64.add (F64.mul b.co.b0 u) b.z1
  let n1 := ftz (F64.add (F64.sub (F64.mul b.co.b1 u) (F64.mul b.co.a1 y)) b.z2)
  let n2 := ftz (F64.sub (F64.mul b.co.b2 u) (F64.mul b.co.a2 y))
  (y, n1, n2)

/-- `BQ_DCGAIN` (R143). -/
def bqDcGain (c : Coeffs) : Word :=
  F64.div (F64.add (F64.add c.b0 c.b1) c.b2) (F64.add (F64.add Lit.one c.a1) c.a2)

/-! ### The design of a section (R144 to R150) -/

/-- HP1, the first-order high-pass (R146). -/
def designHp1 (L : NumLibChoice) (d : Descriptor) (fs : Word) : Coeffs :=
  let k := NumLibChoice.tan L (F64.div (F64.mul Lit.pi d.f) fs)
  let b0 := F64.div Lit.one (F64.add Lit.one k)
  { b0 := b0, b1 := F64.neg b0, b2 := Lit.zero
    a1 := F64.div (F64.sub k Lit.one) (F64.add k Lit.one), a2 := Lit.zero }

/-- `w0` of R145. -/
def designW0 (d : Descriptor) (fs : Word) : Word :=
  F64.div (F64.mul (F64.mul Lit.two Lit.pi) d.f) fs

/-- `cw` of R145. -/
def designCw (L : NumLibChoice) (d : Descriptor) (fs : Word) : Word :=
  NumLibChoice.cos L (designW0 d fs)

/-- `alpha` of R145. -/
def designAlpha (L : NumLibChoice) (d : Descriptor) (fs : Word) : Word :=
  F64.div (NumLibChoice.sin L (designW0 d fs)) (F64.mul Lit.two d.q)

/-- `A` of R145. -/
def designGain (L : NumLibChoice) (d : Descriptor) : Word :=
  NumLibChoice.pow L Lit.ten (F64.div d.gdb Lit.forty)

/-- HP2, the second-order high-pass (R147). -/
def designHp2 (L : NumLibChoice) (d : Descriptor) (fs : Word) : Coeffs :=
  let cw := designCw L d fs
  let alpha := designAlpha L d fs
  let a0 := F64.add Lit.one alpha
  let b := F64.div (F64.div (F64.add Lit.one cw) Lit.two) a0
  { b0 := b, b1 := F64.div (F64.neg (F64.add Lit.one cw)) a0, b2 := b
    a1 := F64.div (F64.mul Lit.negTwo cw) a0
    a2 := F64.div (F64.sub Lit.one alpha) a0 }

/-- LP2, the second-order low-pass (R148). -/
def designLp2 (L : NumLibChoice) (d : Descriptor) (fs : Word) : Coeffs :=
  let cw := designCw L d fs
  let alpha := designAlpha L d fs
  let a0 := F64.add Lit.one alpha
  let b := F64.div (F64.div (F64.sub Lit.one cw) Lit.two) a0
  { b0 := b, b1 := F64.div (F64.sub Lit.one cw) a0, b2 := b
    a1 := F64.div (F64.mul Lit.negTwo cw) a0
    a2 := F64.div (F64.sub Lit.one alpha) a0 }

/-- BELL, the peaking equalizer (R149). -/
def designBell (L : NumLibChoice) (d : Descriptor) (fs : Word) : Coeffs :=
  let cw := designCw L d fs
  let alpha := designAlpha L d fs
  let g := designGain L d
  let a0 := F64.add Lit.one (F64.div alpha g)
  { b0 := F64.div (F64.add Lit.one (F64.mul alpha g)) a0
    b1 := F64.div (F64.mul Lit.negTwo cw) a0
    b2 := F64.div (F64.sub Lit.one (F64.mul alpha g)) a0
    a1 := F64.div (F64.mul Lit.negTwo cw) a0
    a2 := F64.div (F64.sub Lit.one (F64.div alpha g)) a0 }

/-- HSHELF, the high shelf (R150). -/
def designHshelf (L : NumLibChoice) (d : Descriptor) (fs : Word) : Coeffs :=
  let cw := designCw L d fs
  let alpha := designAlpha L d fs
  let g := designGain L d
  let t2 := F64.mul (F64.mul Lit.two (F64.sqrt g)) alpha
  let up := F64.add g Lit.one
  let dn := F64.sub g Lit.one
  let p := F64.add up (F64.mul dn cw)
  let m := F64.sub up (F64.mul dn cw)
  let a0 := F64.add m t2
  { b0 := F64.div (F64.mul g (F64.add p t2)) a0
    b1 := F64.div (F64.mul (F64.mul Lit.negTwo g) (F64.add dn (F64.mul up cw))) a0
    b2 := F64.div (F64.mul g (F64.sub p t2)) a0
    a1 := F64.div (F64.mul Lit.two (F64.sub dn (F64.mul up cw))) a0
    a2 := F64.div (F64.sub m t2) a0 }

/-- Every coefficient is finite. -/
def Coeffs.finite (c : Coeffs) : Bool :=
  F64.isFinite c.b0 && F64.isFinite c.b1 && F64.isFinite c.b2 && F64.isFinite c.a1 && F64.isFinite c.a2

/-- A frequency a filter can be designed for: finite and in `(0, fs/2)` (R144, R181). -/
def frequencyOk (f fs : Word) : Bool :=
  F64.isFinite f && !F64.le f Lit.zero && F64.lt f (F64.mul fs Lit.half)

/-- A quality factor a second-order section can be designed for: finite and positive (R144). -/
def qualityOk (q : Word) : Bool := F64.isFinite q && !F64.le q Lit.zero

/-- The coefficients of a descriptor by its kind code, where the conditions of R144 hold; codes 5 to 7 are not
admitted (R121). -/
def designByKind (L : NumLibChoice) (d : Descriptor) (fs : Word) : Option Coeffs :=
  match d.kind.toNat with
  | 0 => some (designHp1 L d fs)
  | 1 => if qualityOk d.q then some (designHp2 L d fs) else none
  | 2 => if qualityOk d.q then some (designLp2 L d fs) else none
  | 3 => if qualityOk d.q && F64.isFinite d.gdb then some (designBell L d fs) else none
  | 4 => if qualityOk d.q && F64.isFinite d.gdb then some (designHshelf L d fs) else none
  | _ => none

/-- `BQ_DESIGN` (R144); none is FAIL. -/
def bqDesign (L : NumLibChoice) (d : Descriptor) (fs : Word) : Option Coeffs :=
  if frequencyOk d.f fs then
    match designByKind L d fs with
    | some c => if c.finite then some c else none
    | none => none
  else none

/-- The designs of a list of descriptors; one failure fails all (R151). -/
def designAll (L : NumLibChoice) (fs : Word) : List Descriptor → Option (List Coeffs)
  | [] => some []
  | d :: ds =>
    match bqDesign L d fs, designAll L fs ds with
    | some c, some cs => some (c :: cs)
    | _, _ => none

/-! ### Banks (R152) -/

/-- A bank run before its guard: the output, the sections with their candidate states, and whether every output and
every candidate is finite. -/
def bankRun : List Biquad → Word → Word × List Biquad × Bool
  | [], v => (v, [], true)
  | b :: bs, v =>
    let y := (bqProcess b v).1
    let n1 := (bqProcess b v).2.1
    let n2 := (bqProcess b v).2.2
    let rest := bankRun bs y
    (rest.1, { b with z1 := n1, z2 := n2 } :: rest.2.1,
      F64.isFinite y && F64.isFinite n1 && F64.isFinite n2 && rest.2.2)

/-- `BANK_PROCESS` (R152): one guarded stage, whose fallback is its input with no state written. -/
def bankProcess (bank : List Biquad) (x : Word) : Word × List Biquad :=
  if (bankRun bank x).2.2 then ((bankRun bank x).1, (bankRun bank x).2.1) else (x, bank)

/-- `EQ_PROCESS` (R155): the active profile's bank alone. -/
def eqProcess (s : State) (x : Word) : Word × State :=
  match s.profile with
  | .A => ((bankProcess s.eqa x).1, { s with eqa := (bankProcess s.eqa x).2 })
  | .B => ((bankProcess s.eqb x).1, { s with eqb := (bankProcess s.eqb x).2 })

/-- `DCB_PROCESS` (R158). -/
def dcbProcess (s : State) (x : Word) : Word × State :=
  ((bankProcess s.dcb x).1, { s with dcb := (bankProcess s.dcb x).2 })

/-- The descriptor of a DC-blocker section, `(HP2, DCB_F, DCB_Q, 0.0)` (R157). -/
def dcbDescriptor : Descriptor := ⟨1, Config.dcbF, Config.dcbQ, Lit.zero⟩

end Sys2Proof.Machine
end

