-- ==== Sys2Proof/Machine/Allpass.lean ====
section
/-! DEFINITION. The first-order allpass stage and the dispersive bank (spec/41_allpass.md R180 to R187). -/

namespace Sys2Proof.Machine

/-- `AP_PROCESS` (R182): the output and the candidate new state. -/
def apProcess (c z x : Word) : Word × Word :=
  let u := ftz x
  let y := F64.add (F64.mul c u) z
  (y, ftz (F64.sub u (F64.mul c y)))

/-- `AP_DESIGN` (R181); none is FAIL. -/
def apDesign (L : NumLibChoice) (f fs : Word) : Option Word :=
  if frequencyOk f fs then
    let t := NumLibChoice.tan L (F64.div (F64.mul Lit.pi f) fs)
    let c := F64.div (F64.sub Lit.one t) (F64.add Lit.one t)
    if F64.isFinite c then some c else none
  else none

/-- The corner frequency of stage `k`: half octaves upward from the profile's base (R184). -/
def dispFreq (L : NumLibChoice) (base : Word) (k : Nat) : Word :=
  F64.mul base (NumLibChoice.pow L Lit.two (F64.mul (F64.ofNat k) Lit.half))

/-- The frequencies and coefficients of `n` stages from stage `k` on (R184). -/
def dispDesign (L : NumLibChoice) (base fs : Word) : Nat → Nat → Option (List (Word × Word))
  | 0, _ => some []
  | n + 1, k =>
    match apDesign L (dispFreq L base k) fs, dispDesign L base fs n (k + 1) with
    | some c, some rest => some ((dispFreq L base k, c) :: rest)
    | _, _ => none

/-- The dispersive bank run before its guard. -/
def dispRun : List DispStage → Word → Word × List DispStage × Bool
  | [], v => (v, [], true)
  | d :: ds, v =>
    let y := (apProcess d.c d.z v).1
    let zn := (apProcess d.c d.z v).2
    let rest := dispRun ds y
    (rest.1, { d with z := zn } :: rest.2.1, F64.isFinite y && F64.isFinite zn && rest.2.2)

/-- `DISP_PROCESS` (R186): one guarded stage, whose fallback is its input with no state written. -/
def dispProcess (s : State) (x : Word) : Word × State :=
  if (dispRun s.disp x).2.2 then ((dispRun s.disp x).1, { s with disp := (dispRun s.disp x).2.1 })
  else (x, s)

end Sys2Proof.Machine
end

