-- ==== Sys2Proof/Machine/Envelope.lean ====
section
/-! DEFINITION. The envelope followers, the level-adaptive cubic saturator and the tanh limiter
(spec/43_envelope_saturator.md R220 to R233). -/

namespace Sys2Proof.Machine

/-- `ENV_STEP` (R220): the attack coefficient when `a > env`, strictly. -/
def envStep (env a cAtt cRel : Word) : Word :=
  let c := if F64.lt env a then cAtt else cRel
  F64.add (F64.mul c env) (F64.mul (F64.sub Lit.one c) a)

/-- A blend-envelope coefficient from its time constant in milliseconds (R222). -/
def blendCoeff (L : NumLibChoice) (ms fs : Word) : Word :=
  NumLibChoice.exp L (F64.neg (F64.div Lit.thousand (F64.mul ms fs)))

/-- The blend-envelope update of R223. -/
def blendEnvStep (s : State) (v : Word) : State :=
  { s with blendEnv := guardOr (envStep s.blendEnv (F64.abs v) s.blendAtt s.blendRel) s.blendEnv }

/-- The low-level shaping of the saturator coefficient (R226). -/
def shapeLow (L : NumLibChoice) (t : Tuning) (e k : Word) : Word :=
  if F64.lt Lit.zero t.lowThresh && F64.lt e t.lowThresh then
    F64.mul k (F64.add t.lowScale (F64.mul (F64.sub Lit.one t.lowScale)
      (NumLibChoice.pow L (F64.div e t.lowThresh) t.curvePower)))
  else k

/-- The high-level knee of the saturator coefficient (R227). -/
def shapeKnee (t : Tuning) (e k : Word) : Word :=
  if F64.lt Lit.zero t.kneeThresh && F64.lt t.kneeThresh e then
    F64.div k (F64.add Lit.one (F64.mul t.kneeAmount (F64.sub e t.kneeThresh)))
  else k

/-- The saturator coefficient `k` at the new envelope (R225 to R227): the floor applies to the value used. -/
def satCoeff (L : NumLibChoice) (t : Tuning) (envNew : Word) : Word :=
  let e := F64.max Config.envFloor envNew
  shapeKnee t e (shapeLow L t e (F64.mul t.satA3 (NumLibChoice.pow L e t.satPower)))

/-- `SAT_STEP` (R224): the output and the new envelope (R221). -/
def satStep (P : Params) (t : Tuning) (satEnv x : Word) : Word × Word :=
  let envNew := envStep satEnv (F64.abs x) P.envAttackC.val P.envReleaseC.val
  let k := satCoeff P.numlib t envNew
  let b := F64.add x t.dcBias
  (F64.sub b (F64.mul k (F64.mul (F64.mul b b) b)), envNew)

/-- `SAT_STAGE` (R229): the saturator as a guarded stage, whose fallback is its input. -/
def satStage (s : State) (x : Word) : Word × State :=
  let r := satStep s.par s.tuning s.satEnv x
  if F64.isFinite r.1 && F64.isFinite r.2 then (r.1, { s with satEnv := r.2 }) else (x, s)

/-- `HLIM` (R233). An infinity gives ±2.0 whatever the library, as the rule's corner cases say; with the default library
the formula gives the same. -/
def hlim (L : NumLibChoice) (h : Word) : Word :=
  if F64.isInf h then F64.mul (sgn h) Lit.two
  else if F64.lt Config.hlimT (F64.abs h) then
    F64.mul (sgn h) (F64.add Config.hlimT (F64.mul Config.hlimW
      (NumLibChoice.tanh L (F64.div (F64.sub (F64.abs h) Config.hlimT) Config.hlimW))))
  else h

end Sys2Proof.Machine
end

