-- ==== Sys2Proof/Machine/Shield.lean ====
section
/-! DEFINITION. The High-Frequency Shield (spec/42_shield.md R200 to R207): the design of its three sections, its DC
normalization, and the complementary split. -/

namespace Sys2Proof.Machine

/-- The descriptors of the shield: shelf, shelf, bell, whatever kind codes the parameter holds (R200, R201). -/
def shieldDescriptors (v : Vector Descriptor 3) : List Descriptor :=
  [{ v[0] with kind := 4 }, { v[1] with kind := 4 }, { v[2] with kind := 3 }]

/-- The product of the DC gains of the three sections, left to right (R202). -/
def shieldGain : List Coeffs → Word
  | [c0, c1, c2] => F64.mul (F64.mul (bqDcGain c0) (bqDcGain c1)) (bqDcGain c2)
  | _ => Lit.zero

/-- `SHIELD_NORM` of the three sections (R202); none is FAIL. -/
def shieldNormOf (cs : List Coeffs) : Option Word :=
  let g := shieldGain cs
  if !F64.isFinite g || F64.eq g Lit.zero then none
  else if F64.isFinite (F64.div Lit.one g) then some (F64.div Lit.one g) else none

/-- `SHIELD_PROCESS` (R203). -/
def shieldProcess (s : State) (x : Word) : Word × State :=
  (guardOr (F64.mul s.shieldNorm (bankProcess s.shield x).1) x,
    { s with shield := (bankProcess s.shield x).2 })

/-- `SPLIT` (R204): the shielded signal `s` and the complement `c`. -/
def split (s : State) (x : Word) : (Word × Word) × State :=
  let sh := (shieldProcess s x).1
  ((sh, guardOr (F64.sub x sh) Lit.zero), (shieldProcess s x).2)

end Sys2Proof.Machine
end

