-- ==== Sys2Proof/Machine/Thiran.lean ====
section
/-! DEFINITION. The azimuth delay of the second channel: ring buffer and Thiran allpass (spec/44_thiran_delay.md R260 to
R272). -/

namespace Sys2Proof.Machine

/-- `AZ_DESIGN` (R261); none is FAIL. -/
def azDesign (p : Profile) (fs : Word) : Option AzimuthSet :=
  let d := F64.div (F64.mul (Config.azMicroseconds p) fs) Lit.million
  if !F64.isFinite d || F64.lt d Lit.zero then none
  else
    let i := F64.floor d
    if F64.lt Lit.fifteen i then none
    else
      let fr := F64.sub d i
      let c := F64.div (F64.sub Lit.one fr) (F64.add Lit.one fr)
      if F64.isFinite fr && F64.isFinite c then
        some { delay := d, int := Fin.ofNat 16 (F64.toNat i), frac := fr, coeff := c }
      else none

/-- The index the delay line is read at: `AZ_INT` words behind the write pointer, modulo 16 (R264, R268). -/
def azReadIndex (s : State) : Fin 16 :=
  Fin.ofNat 16 (s.azWidx.val + Config.ringSize - s.azInt.val)

/-- The fractional stage on the ring word `r` (R263, R264): the output and the new `AZ_Z`. It is bypassed below
`THIRAN_MIN_FRAC`, and falls back to `r` where it would not be finite. -/
def azFractional (s : State) (r : Word) : Word × Word :=
  if F64.lt s.azFrac Config.thiranMinFrac then (r, s.azZ)
  else
    let a := apProcess s.azCoeff s.azZ r
    if F64.isFinite a.1 && F64.isFinite a.2 then a else (r, s.azZ)

/-- `AZ_STEP` (R264): write, read, delay by the fraction, advance the pointer. -/
def azStep (s : State) (p : Word) : Word × State :=
  let m := ringWrite s.mem s.azWidx p
  let f := azFractional s (ringRead m (azReadIndex s))
  (f.1, { s with mem := m, azZ := f.2, azWidx := Fin.ofNat 16 (s.azWidx.val + 1) })

end Sys2Proof.Machine
end

