-- ==== Sys2Proof/Machine/Recompute.lean ====
section
/-! DEFINITION. Recomputation (spec/47_commands.md R348, R349): the complete shadow set of coefficients, derived from its
arguments and the parameters, or FAIL. The state is not read and not written here. -/

namespace Sys2Proof.Machine

/-- `FADE_INC` (R312, R348). -/
def fadeIncrement (P : Params) (fs : Word) : Word := F64.div Lit.thousand (F64.mul P.fadeMs.val fs)

/-- Every field of a tuning record is finite (R36, R349). -/
def Tuning.finite (t : Tuning) : Bool :=
  F64.isFinite t.satA3 && F64.isFinite t.satPower && F64.isFinite t.lowScale && F64.isFinite t.blendRatio
    && F64.isFinite t.lowThresh && F64.isFinite t.curvePower && F64.isFinite t.kneeThresh
    && F64.isFinite t.kneeAmount && F64.isFinite t.dcBias && F64.isFinite t.outScale && F64.isFinite t.msScale

/-- A number is finite and positive. -/
def finitePositive (v : Word) : Bool := F64.isFinite v && F64.lt Lit.zero v

/-- The sets of scope FULL that depend on the sample rate alone (R348, R154, R157, R222, R312). -/
def recomputeRate (P : Params) (fs : Word) : Option RateSet :=
  match designAll P.numlib fs (P.eqDesign .A), designAll P.numlib fs (P.eqDesign .B),
      designAll P.numlib fs (List.replicate Config.dcbN dcbDescriptor) with
  | some eqa, some eqb, some dcb =>
    let att := blendCoeff P.numlib P.blendAttMs.val fs
    let rel := blendCoeff P.numlib P.blendRelMs.val fs
    let inc := fadeIncrement P fs
    if F64.isFinite att && F64.isFinite rel && F64.isFinite inc then
      some { eqa := eqa, eqb := eqb, dcb := dcb, blendAtt := att, blendRel := rel, fadeInc := inc }
    else none
  | _, _, _ => none

/-- The constants of the formula suit the tuning: `Ms` and `A` are finite and positive (R291, R348). -/
def solverScaleOk (P : Params) (f : Formula) (t : Tuning) : Bool :=
  finitePositive (F64.mul (P.ja f).ms0 t.msScale) && finitePositive (P.ja f).a

/-- The sets of scope PROFILE (R348): shield, dispersive bank, azimuth and tuning. -/
def recomputeProfile (P : Params) (fs : Word) (p : Profile) (f : Formula) : Option ProfileSet :=
  match designAll P.numlib fs (shieldDescriptors (P.shieldDesign p)) with
  | none => none
  | some shield =>
    match shieldNormOf shield, dispDesign P.numlib (P.dispBase p) fs P.nDisp.val 0, azDesign p fs with
    | some norm, some disp, some az =>
      if Tuning.finite (P.tuning p f) && solverScaleOk P f (P.tuning p f) then
        some { shield := shield, shieldNorm := norm, disp := disp, azimuth := az, tuning := P.tuning p f }
      else none
    | _, _, _ => none

/-- `RECOMPUTE` in scope FULL (R348). -/
def recomputeFull (P : Params) (fs : Word) (p : Profile) (f : Formula) : Option (RateSet × ProfileSet) :=
  match recomputeRate P fs, recomputeProfile P fs p f with
  | some r, some q => some (r, q)
  | _, _ => none

end Sys2Proof.Machine
end

