-- ==== Sys2Proof/Machine/Configure.lean ====
section
/-! DEFINITION. The meanings of CONFIGURE and SET_PROFILE (spec/47_commands.md R342, R347). -/

namespace Sys2Proof.Machine

/-- The sample rate is one CONFIGURE accepts: finite and above zero (R342). -/
def rateOk (fs : Word) : Bool := F64.isFinite fs && !F64.le fs Lit.zero

/-- The rule of CONFIGURE (R342). -/
def configureBody (s : State) : Except FaultCode State :=
  if rateOk (opSampleRate s) then
    match recomputeFull s.par (opSampleRate s) s.profile s.formula with
    | some (r, p) =>
      .ok { commitProfile p (commitRate r s) with fs := opSampleRate s, blockState := .ready }
    | none => .error .badDesign
  else .error .badRate

/-- CONFIGURE (R342). -/
def execConfigure (s : State) : Host.Outcome State Fault Refusal := .next (framed s configureBody)

/-- The bias as SET_PROFILE stores it (R347, D48). -/
def clampedBias (b : Word) : Word := clamp b Lit.zero Lit.one

/-- The profile a clamped bias selects: Profile A at or above 0.74 (R347), or below it where `PROFILE_A_AT_OR_ABOVE` is
false (R7, D14; notes/assumptions/11.md). -/
def profileOf (P : Params) (bc : Word) : Profile :=
  if F64.le Config.profileThreshold bc == P.profileAAtOrAbove then .A else .B

/-- `changed` of R347: the profile, the formula or, with `GAIN_TRIGGERS_RECOMPUTE`, the gain is a new one. -/
def settingsChanged (s : State) (p : Profile) (f : Formula) (g : Word) : Bool :=
  p != s.profile || f != s.formula || (s.par.gainTriggersRecompute && !F64.eq g s.ingain)

/-- Storing the settings, the last line of R347. -/
def storeSettings (bc g : Word) (p : Profile) (f : Formula) (s : State) : State :=
  { s with bias := bc, ingain := g, profile := p, formula := f }

/-- The rule of SET_PROFILE (R347). -/
def setProfileBody (f : Formula) (s : State) : Except FaultCode State :=
  let b := opBias s
  let g := opGain s
  if F64.isFinite b && F64.isFinite g then
    let bc := clampedBias b
    let p := profileOf s.par bc
    if s.isReady && settingsChanged s p f g then
      match recomputeProfile s.par s.fs p f with
      | some q => .ok (storeSettings bc g p f (commitProfile q s))
      | none => .error .badDesign
    else .ok (storeSettings bc g p f s)
  else .error .badOperand

/-- SET_PROFILE (R347). -/
def execSetProfile (f : Formula) (s : State) : Host.Outcome State Fault Refusal :=
  .next (framed s (setProfileBody f))

end Sys2Proof.Machine
end

