-- ==== Sys2Proof/Machine/Control.lean ====
section
/-! DEFINITION. The meanings of NOP, RESET and RD_REG (spec/47_commands.md R341, R343, R346). -/

namespace Sys2Proof.Machine

/-- NOP (R341): ACK is OK, while a fault is pending too (R404). -/
def execNop (s : State) : Host.Outcome State Fault Refusal := .next (complete s)

/-- RESET (R343): the signal state of R46 c at zero; accepted in state Uninitialized too. -/
def execReset (s : State) : Host.Outcome State Fault Refusal :=
  .next (framed s (fun t => .ok (zeroSignal t)))

/-- RD_REG (R346): `RES <- reg[a]`, while a fault is pending too; an unmapped address raises BAD_ADDR, of which only ACK
shows when a fault is pending already, because the first fault wins (R340, R402, R404). STATUS is read as it was before
this command. -/
def execRdReg (addr : Nat) (s : State) : Host.Outcome State Fault Refusal :=
  match regRead s addr with
  | some v => .next (complete { s with res := v })
  | none => .next (raiseFault .badAddr s)

end Sys2Proof.Machine
end

