-- ==== Sys2Proof/Machine/Hysteresis.lean ====
section
/-! DEFINITION. The hysteresis solver port and the reference solver (spec/45_hysteresis_port.md R280 to R297). -/

namespace Sys2Proof.Machine

/-- What `JA_SOLVE` returns: `Hn`, `Mn` and `out` (R280). -/
structure JaResult where
  hn : Word
  mn : Word
  out : Word
  deriving DecidableEq, Repr

/-- The result of a diverged solver, and of `JA_ZERO` (R286, R296). -/
def JaResult.zero : JaResult := ⟨Lit.zero, Lit.zero, Lit.zero⟩

/-! ### The reference solver -/

/-- `LANG` (R293). -/
def lang (L : NumLibChoice) (x : Word) : Word :=
  if F64.lt (F64.abs x) Config.langTaylor then
    F64.sub (F64.div x Lit.three) (F64.div (F64.mul (F64.mul x x) x) Lit.fortyFive)
  else
    let t := NumLibChoice.tanh L x
    if F64.lt (F64.abs t) Config.langTanhMin then F64.div x Lit.three
    else F64.sub (F64.div Lit.one t) (F64.div Lit.one x)

/-- `LANGD` (R293). -/
def langD (L : NumLibChoice) (x : Word) : Word :=
  if F64.lt (F64.abs x) Config.langTaylor then
    F64.sub (F64.div Lit.one Lit.three) (F64.div (F64.mul x x) Lit.fifteen)
  else
    let t := NumLibChoice.tanh L x
    if F64.lt (F64.abs t) Config.langTanhMin then F64.div Lit.one Lit.three
    else F64.add (F64.sub (F64.div Lit.one (F64.mul x x)) (F64.div Lit.one (F64.mul t t))) Lit.one

/-- The extended ceiling `1.1 × Ms` (R287, R294). -/
def softTop (ms : Word) : Word := F64.mul Config.softCeil ms

/-- The magnitude above which the output is limited, 90 % of the extended ceiling (R287, R294). -/
def softStart (ms : Word) : Word := F64.mul Config.softKnee (softTop ms)

/-- `SOFTM` (R294). -/
def softM (L : NumLibChoice) (m ms : Word) : Word :=
  let top := softTop ms
  let kn := softStart ms
  let w := F64.sub top kn
  if F64.lt kn (F64.abs m) then
    F64.mul (sgn m) (F64.add kn (F64.mul w (NumLibChoice.tanh L (F64.div (F64.sub (F64.abs m) kn) w))))
  else m

/-- One Newton iteration of `JA_REF` (R292), with its step clamp and its range clamp (R284). -/
def jaNewton (L : NumLibChoice) (P : JaParams) (ms dH dl mp h m : Word) : Word :=
  let he := F64.add h (F64.mul P.alpha m)
  let xa := F64.div he P.a
  let man := F64.mul ms (lang L xa)
  let dMan := F64.mul (F64.div ms P.a) (langD L xa)
  let dd := F64.sub man m
  let den := F64.sub (F64.mul dl P.k) (F64.mul P.alpha dd)
  let chi := F64.add (F64.div dd den) (F64.mul P.c dMan)
  let r := F64.sub (F64.sub m mp) (F64.mul chi dH)
  let j := F64.add Lit.one (F64.div dH den)
  let step := F64.div r j
  let lim := F64.mul Config.jaStepFrac ms
  let step' := if F64.isFinite step then clamp step (F64.neg lim) lim else step
  let m' := F64.sub m step'
  if F64.isFinite m' then clamp m' (F64.neg ms) ms else m'

/-- The fixed number of Newton iterations (R283). -/
def jaIterate (L : NumLibChoice) (P : JaParams) (ms dH dl mp h : Word) : Nat → Word → Word
  | 0, m => m
  | n + 1, m => jaIterate L P ms dH dl mp h n (jaNewton L P ms dH dl mp h m)

/-- The field step of one sample, limited to `10000 / fs` (R282). -/
def slewLimit (fs hp h : Word) : Word :=
  let lim := F64.div Config.jaSlew fs
  clamp (F64.sub h hp) (F64.neg lim) lim

/-- `JA_REF` (R292). -/
def jaRef (L : NumLibChoice) (P : JaParams) (ms fs hp mp h : Word) : JaResult :=
  let dH := slewLimit fs hp h
  let dl := if F64.le Lit.zero (F64.mul dH fs) then Lit.one else Lit.negOne
  let m := jaIterate L P ms dH dl mp h Config.jaIters mp
  if F64.isFinite m then ⟨h, m, softM L m ms⟩ else JaResult.zero

/-! ### Another solver on the port -/

/-- The first of three numbers that is not zero is negative. -/
def leadNeg (a b c : Word) : Bool :=
  if !F64.isZero a then F64.isNeg a else if !F64.isZero b then F64.isNeg b else F64.isNeg c

/-- The output of a free solver for a magnetization `m`: `m` itself up to the knee, and above it the solver's own `o`, held
between the knee and the extended ceiling on the side of `m` (R287). The saturating function itself is the solver's. -/
def attachedOut (ms m o : Word) : Word :=
  if F64.lt (softStart ms) (F64.abs m) then F64.mul (sgn m) (clamp (F64.abs o) (softStart ms) (softTop ms)) else m

/-- The free solver with its magnetization held to `±Ms` (R284, R289 property 5) and a finite output limited (R287). Results
that are not finite, of a solver that breaks those rules, are left to the block's guards (R290). -/
def attachedRaw (id : Nat) (P : JaParams) (ms fs hp mp h : Word) : JaResult :=
  let r := Config.attachedSolver id P ms fs hp mp h
  let m := if F64.isFinite r.2.1 then clamp r.2.1 (F64.neg ms) ms else r.2.1
  ⟨r.1, m, if F64.isFinite m && F64.isFinite r.2.2 then attachedOut ms m r.2.2 else r.2.2⟩

/-- A solver of which the model knows only what R284, R287 and R289 require of every one: it is a function of its
arguments, it maps zero to zero, it is odd, a finite magnetization is within `±Ms`, and a finite output is
that magnetization, limited above the knee (notes/assumptions/3.md). -/
def jaAttached (id : Nat) (P : JaParams) (ms fs hp mp h : Word) : JaResult :=
  if F64.isZero h && F64.isZero hp && F64.isZero mp then JaResult.zero
  else if leadNeg h hp mp then
    let r := attachedRaw id P ms fs (F64.neg hp) (F64.neg mp) (F64.neg h)
    ⟨F64.neg r.hn, F64.neg r.mn, F64.neg r.out⟩
  else attachedRaw id P ms fs hp mp h

/-- `JA_SOLVE` (R280), the function the implementation has on the port. -/
def jaSolve (c : SolverChoice) (L : NumLibChoice) (P : JaParams) (ms fs hp mp h : Word) : JaResult :=
  match c with
  | .ref => jaRef L P ms fs hp mp h
  | .zero => JaResult.zero
  | .attached id => jaAttached id P ms fs hp mp h

/-! ### How the block uses the port -/

/-- `Ms` of the active formula, formed at each call (R291). -/
def effectiveMs (s : State) : Word := F64.mul (s.par.ja s.formula).ms0 s.tuning.msScale

/-- The output the block takes over the port. R290 has step 4 replace every output that is not finite by its dry value; a
NaN and an infinity are both handed on as a NaN, which the pseudocode of R300 does replace
(notes/assumptions/20.md, DESIGN CHOICE). -/
def portOut (o : Word) : Word := if F64.isFinite o then o else F64.nan

/-- The block's guard on the port's result (R288, R290). -/
def hystAccept (r : JaResult) (s : State) : Word × State :=
  if F64.isFinite r.hn && F64.isFinite r.mn then (portOut r.out, { s with hystH := r.hn, hystM := r.mn })
  else (Lit.zero, { s with hystH := Lit.zero, hystM := Lit.zero })

/-- `HYST_STEP` (R288). -/
def hystStep (s : State) (v : Word) : Word × State :=
  hystAccept
    (jaSolve s.par.solver s.par.numlib (s.par.ja s.formula) (effectiveMs s) s.fs s.hystH s.hystM v) s

end Sys2Proof.Machine
end

