-- ==== Sys2Proof/Machine/Pipeline.lean ====
section
/-! DEFINITION. The per-sample signal pipeline (spec/46_pipeline.md R300 to R313): eleven steps in fixed order. -/

namespace Sys2Proof.Machine

/-- Input sanitization (R301): a sample that is not finite is read as +0.0. -/
def sanitize (x : Word) : Word := if F64.isFinite x then x else Lit.zero

/-- Step 1 (R302): the input gain, falling back to the ungained sample. -/
def gainStage (s : State) (x : Word) : Word := guardOr (F64.mul x s.ingain) x

/-- The scaled and limited hysteresis output of step 4, falling back to `v`: the limiter, then the guard, in the order of
R300 and R305. An output of the port that is not finite reaches it as a NaN (`portOut`) and becomes `v` (R290;
notes/assumptions/20.md, DESIGN CHOICE). A finite output whose product overflows becomes ±2.0 (R233). -/
def hystScale (s : State) (out v : Word) : Word :=
  guardOr (hlim s.par.numlib (F64.mul out s.tuning.outScale)) v

/-- Step 5 (R306): the blend of the dry share and the hysteresis share, falling back to `v`. -/
def blend (s : State) (v h : Word) : Word :=
  guardOr (F64.add (F64.mul v (F64.sub Lit.one s.tuning.blendRatio)) (F64.mul h s.tuning.blendRatio)) v

/-- Step 7 (R308): recombination with the complement, falling back to the saturated signal. -/
def recombine (sat c : Word) : Word := guardOr (F64.add sat c) sat

/-- Step 11 (R312): the gain before this sample's increment, then the increment, clamped at 1.0. -/
def fadeStep (s : State) (x : Word) : Word × State :=
  (F64.mul x s.fadeGain, { s with fadeGain := F64.min Lit.one (F64.add s.fadeGain s.fadeInc) })

/-- Steps 1 to 5 (R301 to R306): the sample to saturate, the complement and the state. -/
def pipelineFront (s : State) (xin : Word) : (Word × Word) × State :=
  let x := gainStage s (sanitize xin)
  let sp := split s x
  let s3 := blendEnvStep sp.2 sp.1.1
  let hy := hystStep s3 sp.1.1
  ((blend hy.2 sp.1.1 (hystScale hy.2 hy.1 sp.1.1), sp.1.2), hy.2)

/-- Steps 6 to 11 (R307 to R312). -/
def pipelineBack (s : State) (bl c : Word) : Word × State :=
  let sat := satStage s bl
  let eq := eqProcess sat.2 (recombine sat.1 c)
  let di := dispProcess eq.2 eq.1
  let dc := dcbProcess di.2 di.1
  fadeStep dc.2 dc.1

/-- `PIPELINE` (R300): the output sample and the state. -/
def pipeline (s : State) (xin : Word) : Word × State :=
  let fr := pipelineFront s xin
  pipelineBack fr.2 fr.1.1 fr.1.2

end Sys2Proof.Machine
end

