-- ==== Sys2Proof/Machine/Process.lean ====
section
/-! DEFINITION. The meanings of PROCESS and PROCESS2 (spec/47_commands.md R344, R345). -/

namespace Sys2Proof.Machine

/-- The state a PROCESS leaves, ACK apart: the pipeline's, with the output sample in RES (R344). -/
def processed (s : State) : State :=
  { (pipeline s (opSample s)).2 with res := (pipeline s (opSample s)).1 }

/-- PROCESS (R344): UNCONFIGURED in state Uninitialized. -/
def execProcess (s : State) : Host.Outcome State Fault Refusal :=
  .next (framed s (fun t => if t.isReady then .ok (processed t) else .error .unconfigured))

/-- The state a PROCESS2 leaves, ACK apart: the primary path, then the azimuth delay (R345). -/
def processed2 (s : State) : State :=
  let p := pipeline s (opSample s)
  { (azStep p.2 p.1).2 with res := (azStep p.2 p.1).1 }

/-- PROCESS2 (R345): UNCONFIGURED in state Uninitialized. -/
def execProcess2 (s : State) : Host.Outcome State Fault Refusal :=
  .next (framed s (fun t => if t.isReady then .ok (processed2 t) else .error .unconfigured))

end Sys2Proof.Machine
end

