-- ==== Sys2Proof/Machine/Dispatch.lean ====
section
/-! DEFINITION. The meaning of every command: one arm per constructor of `Instr` (spec/30_encoding.md R106). -/

namespace Sys2Proof.Machine

def exec (i : Instr) (s : State) : Host.Outcome State Fault Refusal :=
  match i with
  | .nop => Sys2Proof.Machine.execNop s
  | .configure => Sys2Proof.Machine.execConfigure s
  | .setProfile f => Sys2Proof.Machine.execSetProfile f s
  | .reset => Sys2Proof.Machine.execReset s
  | .process => Sys2Proof.Machine.execProcess s
  | .process2 => Sys2Proof.Machine.execProcess2 s
  | .rdReg addr => Sys2Proof.Machine.execRdReg addr s
  | .calSatA3 => Sys2Proof.Machine.execCalSatA3 s
  | .calPower => Sys2Proof.Machine.execCalPower s
  | .calLowScale => Sys2Proof.Machine.execCalLowScale s
  | .calBlendRatio => Sys2Proof.Machine.execCalBlendRatio s
  | .calLowThresh => Sys2Proof.Machine.execCalLowThresh s
  | .calCurvePower => Sys2Proof.Machine.execCalCurvePower s
  | .calKneeThresh => Sys2Proof.Machine.execCalKneeThresh s
  | .calKneeAmount => Sys2Proof.Machine.execCalKneeAmount s

end Sys2Proof.Machine
end

