-- ==== Sys2Proof/Machine/Window.lean ====
section
/-! DEFINITION. The host window (spec/20_memory.md R84 to R90): which accesses it admits, what each does, and the taking of
one event from the block's ports. -/

namespace Sys2Proof.Machine

/-- The registers of the host window (R84); `reserved` is offset 0x04. -/
inductive WindowReg where
  | cmd
  | reserved
  | op0
  | op1
  | res
  | status
  deriving DecidableEq, Repr

/-- The register an access of a width in bytes at an offset reaches; none where R86 does not admit the access. Offset
0x04 is reached as 32 bits, its width in R84 (notes/assumptions/9.md). -/
def windowReg (offset width : Nat) : Option WindowReg :=
  if width = 4 then
    (if offset = 0x00 then some .cmd else if offset = 0x04 then some .reserved else none)
  else if width = 8 then
    (if offset = 0x08 then some .op0 else if offset = 0x10 then some .op1
     else if offset = 0x18 then some .res else if offset = 0x20 then some .status else none)
  else none

/-- The width of a window register in bytes (R84). -/
def WindowReg.width : WindowReg → Nat
  | .cmd => 4
  | .reserved => 4
  | .op0 => 8
  | .op1 => 8
  | .res => 8
  | .status => 8

/-- The offset of a window register (R84). -/
def WindowReg.offset : WindowReg → Nat
  | .cmd => 0x00
  | .reserved => 0x04
  | .op0 => 0x08
  | .op1 => 0x10
  | .res => 0x18
  | .status => 0x20

/-- The value a host read of a window register returns (R84, R87). -/
def windowValue (s : State) : WindowReg → Nat
  | .cmd => s.cmd.toNat
  | .reserved => 0
  | .op0 => s.op0.toNat
  | .op1 => s.op1.toNat
  | .res => s.res.toNat
  | .status => (statusWord s).toNat

/-- The command word of a `CMD` write, from its lanes (R85). -/
def cmdOfLanes (lanes : List Byte) : CmdWord := BitVec.ofNat 32 (ofLanes lanes)

/-- `EXEC(w)` of R340: the word is latched in `CMD` (R87, R402) and run. -/
def issue (lanes : List Byte) (s : State) : Host.Outcome State Fault Refusal :=
  match decodeBytes lanes with
  | .ok i => exec i { s with cmd := cmdOfLanes lanes }
  | .error _ => .next (illegalCommand { s with cmd := cmdOfLanes lanes })

/-- A host write (R84, R86, R87): `CMD` executes a command, `OP0` and `OP1` store 64 bits, the read-only registers ignore
it, and an access the window does not admit leaves the model stuck (R416). -/
def hostWrite (offset : Nat) (lanes : List Byte) (s : State) : Host.Outcome State Fault Refusal :=
  match windowReg offset lanes.length with
  | some .cmd => issue lanes s
  | some .op0 => .next { s with op0 := BitVec.ofNat 64 (ofLanes lanes) }
  | some .op1 => .next { s with op1 := BitVec.ofNat 64 (ofLanes lanes) }
  | some .reserved => .next s
  | some .res => .next s
  | some .status => .next s
  | none => .fault (.inadmissibleAccess offset lanes.length)

/-- A host read (R84 to R87, R89): the register's lanes go to the host, and no state of the block changes. -/
def hostRead (offset width : Nat) (s : State) : Host.Outcome State Fault Refusal :=
  match windowReg offset width with
  | some r => .next { s with rdata := toLanes width (windowValue s r) }
  | none => .fault (.inadmissibleAccess offset width)

/-- One event on the block's ports (R90). -/
def takeEvent (e : HostEvent) (s : State) : Host.Outcome State Fault Refusal :=
  match e with
  | .write offset lanes => hostWrite offset lanes s
  | .read offset width => hostRead offset width s
  | .resetPulse => .next (hwReset s)

/-- The event that writes a command word, given as a number of `nbits` bits, to `CMD`. -/
def cmdWrite (nbits w : Nat) : HostEvent := .write 0x00 (toLanes 4 (w % 2 ^ nbits))

/-- The event that writes a 64-bit window register. -/
def wordWrite (r : WindowReg) (v : Word) : HostEvent := .write r.offset (toLanes 8 v.toNat)

/-- The event that reads a window register. -/
def regReadEvent (r : WindowReg) : HostEvent := .read r.offset r.width

end Sys2Proof.Machine
end

