-- ==== Sys2Proof/Machine/Step.lean ====
section
/-! DEFINITION. One step of the block (spec/20_memory.md R92): it takes the oldest event that waits on its ports and
completes it. With none waiting the block waits (spec/70_reset_and_hazards.md R432). -/

namespace Sys2Proof.Machine

/-- One step. A command runs to completion in the step that takes its `CMD` write (R88, R444, R452). -/
def step (s : State) : Host.Outcome State Fault Refusal :=
  match s.pending with
  | [] => .next s
  | e :: rest => takeEvent e { s with pending := rest }

/-- The state in which the next event is the `CMD` write of a table word. The block fetches nothing (R32, R95): a command
comes from the host (notes/assumptions/10.md). -/
def State.withFetchWord (s : State) (nbits w : Nat) : State :=
  { s with pending := cmdWrite nbits w :: s.pending }

end Sys2Proof.Machine
end

