-- ==== Sys2Proof/Machine/System.lean ====
section
/-! DEFINITION. Several instances on one host bus (spec/60_exceptions.md R420, spec/20_memory.md R98,
spec/70_reset_and_hazards.md R433): each has its own window and its own state, and nothing is shared. -/

namespace Sys2Proof.Machine

/-- An instance and the base address the platform gives its host window; a multiple of 8 (R433). -/
structure Placed where
  base : Nat
  inst : State
  deriving DecidableEq, Repr

/-- A system of instances (`N_INSTANCES` of them, R420). -/
abbrev System := List Placed

/-- The size of a host window in bytes (R80). -/
def windowSize : Nat := 0x28

/-- A bus address lies in an instance's window. -/
def Placed.owns (p : Placed) (addr : Nat) : Bool := decide (p.base ≤ addr) && decide (addr < p.base + windowSize)

/-- The placement R433 asks of the platform: every base a multiple of 8, no two windows overlapping, at least one
instance. -/
def System.placedWell (y : System) : Bool :=
  !y.isEmpty && y.all (fun p => p.base % 8 == 0)
    && decide (y.Pairwise (fun p q => p.base + windowSize ≤ q.base ∨ q.base + windowSize ≤ p.base))

/-- A bus write goes, as an event at its window offset, to the instance that owns the address of its first byte. One that
begins in no window reaches no instance, one that begins below a window and runs into it included: the spec gives no
decoding of the bus, and this is the model's choice (notes/assumptions/22.md, DESIGN CHOICE). -/
def System.busWrite (y : System) (addr : Nat) (lanes : List Byte) : System :=
  y.map fun p =>
    if p.owns addr then
      { p with inst := { p.inst with pending := p.inst.pending ++ [.write (addr - p.base) lanes] } }
    else p

/-- A bus read goes to the instance that owns the address of its first byte, as a bus write does
(notes/assumptions/22.md, DESIGN CHOICE). -/
def System.busRead (y : System) (addr width : Nat) : System :=
  y.map fun p =>
    if p.owns addr then
      { p with inst := { p.inst with pending := p.inst.pending ++ [.read (addr - p.base) width] } }
    else p

/-- One step of the instance at a place in the system; none where there is none, or where it does not step. -/
def System.stepAt : System → Nat → Option System
  | [], _ => none
  | p :: rest, 0 =>
    match step p.inst with
    | .next t => some ({ p with inst := t } :: rest)
    | _ => none
  | p :: rest, k + 1 => (System.stepAt rest k).map (p :: ·)

end Sys2Proof.Machine
end

