-- ==== Sys2Proof/Safety.lean ====
section
/-! DEFINITION. What the claims call a good state: the invariants of spec/10_state.md R47, and the shapes of the state that
R39, R40 and R91 give it. -/

namespace Sys2Proof.Machine

/-! ### Finiteness, R47(1) -/

/-- The coefficients and the state registers of a section are finite. -/
def Biquad.finite (b : Biquad) : Bool := b.co.finite && F64.isFinite b.z1 && F64.isFinite b.z2

/-- The registers of a dispersive stage are finite. -/
def DispStage.finite (d : DispStage) : Bool := F64.isFinite d.freq && F64.isFinite d.c && F64.isFinite d.z

/-- Every ring word is finite. -/
def ringFinite (m : Memory) : Bool := (List.finRange 16).all (fun i => F64.isFinite (ringRead m i))

/-- Every binary64 register outside the banks and the tuning is finite. -/
def State.scalarsFinite (s : State) : Bool :=
  F64.isFinite s.fs && F64.isFinite s.bias && F64.isFinite s.ingain && F64.isFinite s.shieldNorm
    && F64.isFinite s.satEnv && F64.isFinite s.blendEnv && F64.isFinite s.blendAtt && F64.isFinite s.blendRel
    && F64.isFinite s.fadeGain && F64.isFinite s.fadeInc && F64.isFinite s.hystH && F64.isFinite s.hystM
    && F64.isFinite s.azDelay && F64.isFinite s.azFrac && F64.isFinite s.azCoeff && F64.isFinite s.azZ

/-- Every binary64 state element is finite (R47(1)). The host-window registers hold 64 bits, whatever they are. -/
def State.allFinite (s : State) : Bool :=
  s.scalarsFinite && Tuning.finite s.tuning && s.shield.all Biquad.finite && s.eqa.all Biquad.finite
    && s.eqb.all Biquad.finite && s.dcb.all Biquad.finite && s.disp.all DispStage.finite && ringFinite s.mem

/-! ### Ranges, R47(2), R47(4) and R47(5) -/

/-- `0.0 <= v <= 1.0`. -/
def inUnit (v : Word) : Bool := F64.le Lit.zero v && F64.le v Lit.one

/-- FADE_GAIN and BIAS lie in [0, 1], and FADE_INC is not negative (R47(2), R47(5), R313). -/
def State.rangesOk (s : State) : Bool := inUnit s.fadeGain && inUnit s.bias && F64.le Lit.zero s.fadeInc

/-- In state Ready, FS is finite and above zero (R47(4)). -/
def State.rateSet (s : State) : Bool := !s.isReady || finitePositive s.fs

/-! ### Shapes -/

/-- The banks have the lengths of R39 and R40. -/
def State.shapeOk (s : State) : Bool :=
  s.shield.length == 3 && s.eqa.length == s.par.eqN .A && s.eqb.length == s.par.eqN .B
    && s.dcb.length == Config.dcbN && s.disp.length == s.par.nDisp.val

/-- A listed byte belongs to the ring: 16 words of 8 bytes from register-space address 0x600 (R91). -/
def inRing (a : Nat) : Bool := decide (8 * 0x600 ≤ a) && decide (a < 8 * 0x600 + 8 * 16)

/-- The ring memory is canonical and lists no byte outside the ring. -/
def State.memOk (s : State) : Bool := Memory.wf s.mem && s.mem.all (fun c => inRing c.1)

/-! ### The invariant -/

/-- The invariant of R47, clauses (1), (2), (3), (5) and the first half of (4); clause (3) also stands in the types of
`azInt` and `azWidx`. -/
structure State.Inv (s : State) : Prop where
  finite : s.allFinite = true
  ranges : s.rangesOk = true
  rate : s.rateSet = true
  shape : s.shapeOk = true
  mem : s.memOk = true

/-- The coefficients of a bank. -/
def bankCoeffs (bank : List Biquad) : List Coeffs := bank.map (·.co)

/-- The state holds the rate-dependent sets `r`. -/
structure State.HoldsRate (s : State) (r : RateSet) : Prop where
  eqa : bankCoeffs s.eqa = r.eqa
  eqb : bankCoeffs s.eqb = r.eqb
  dcb : bankCoeffs s.dcb = r.dcb
  blendAtt : s.blendAtt = r.blendAtt
  blendRel : s.blendRel = r.blendRel
  fadeInc : s.fadeInc = r.fadeInc

/-- The state holds the profile-dependent sets `p`, the eight calibration registers apart (R47(4)). -/
structure State.HoldsProfile (s : State) (p : ProfileSet) : Prop where
  shield : bankCoeffs s.shield = p.shield
  shieldNorm : s.shieldNorm = p.shieldNorm
  disp : s.disp.map (fun d => (d.freq, d.c)) = p.disp
  azDelay : s.azDelay = p.azimuth.delay
  azInt : s.azInt = p.azimuth.int
  azFrac : s.azFrac = p.azimuth.frac
  azCoeff : s.azCoeff = p.azimuth.coeff
  dcBias : s.tuning.dcBias = p.tuning.dcBias
  outScale : s.tuning.outScale = p.tuning.outScale
  msScale : s.tuning.msScale = p.tuning.msScale

/-- The second half of R47(4): in state Ready, every coefficient set is the one a full recomputation derives from the
current FS, profile and formula. -/
def State.Derived (s : State) : Prop :=
  s.blockState = .ready →
    ∃ r p, recomputeFull s.par s.fs s.profile s.formula = some (r, p) ∧ s.HoldsRate r ∧ s.HoldsProfile p

/-! ### What two states agree on -/

/-- The frequencies and coefficients of the dispersive bank. -/
def dispCoeffs (bank : List DispStage) : List (Word × Word) := bank.map (fun d => (d.freq, d.c))

/-- The state registers of a bank's sections. -/
def bankSignal (bank : List Biquad) : List (Word × Word) := bank.map (fun b => (b.z1, b.z2))

/-- The state registers of the dispersive bank. -/
def dispSignal (bank : List DispStage) : List Word := bank.map (·.z)

/-- `t` and `s` agree on the operand registers, `CMD`, the parameters and the host's side of the port. -/
structure SameHost (s t : State) : Prop where
  cmd : t.cmd = s.cmd
  op0 : t.op0 = s.op0
  op1 : t.op1 = s.op1
  par : t.par = s.par
  pending : t.pending = s.pending
  rdata : t.rdata = s.rdata

/-- `t` and `s` agree on the configuration of R46 a, `STATE` apart. -/
structure SameSettings (s t : State) : Prop where
  fs : t.fs = s.fs
  bias : t.bias = s.bias
  ingain : t.ingain = s.ingain
  profile : t.profile = s.profile
  formula : t.formula = s.formula

/-- `t` and `s` agree on the coefficients that depend on the sample rate alone. -/
structure SameRate (s t : State) : Prop where
  eqa : bankCoeffs t.eqa = bankCoeffs s.eqa
  eqb : bankCoeffs t.eqb = bankCoeffs s.eqb
  dcb : bankCoeffs t.dcb = bankCoeffs s.dcb
  blendAtt : t.blendAtt = s.blendAtt
  blendRel : t.blendRel = s.blendRel
  fadeInc : t.fadeInc = s.fadeInc

/-- `t` and `s` agree on the coefficients that depend on the profile or the formula, the tuning registers apart. -/
structure SameShape (s t : State) : Prop where
  shield : bankCoeffs t.shield = bankCoeffs s.shield
  shieldNorm : t.shieldNorm = s.shieldNorm
  disp : dispCoeffs t.disp = dispCoeffs s.disp
  azDelay : t.azDelay = s.azDelay
  azInt : t.azInt = s.azInt
  azFrac : t.azFrac = s.azFrac
  azCoeff : t.azCoeff = s.azCoeff

/-- `t` and `s` agree on every coefficient of R46 b, the tuning registers among them. -/
structure SameCoeffs (s t : State) : Prop where
  rate : SameRate s t
  shape : SameShape s t
  tuning : t.tuning = s.tuning

/-- `t` and `s` agree on the delay line of PROCESS2: pointer, allpass state and every byte of the ring. -/
structure SameDelayLine (s t : State) : Prop where
  azZ : t.azZ = s.azZ
  azWidx : t.azWidx = s.azWidx
  ring : ∀ a, Memory.readByte t.mem a = Memory.readByte s.mem a

/-- `t` and `s` agree on the whole signal state of R46 c. -/
structure SameSignal (s t : State) : Prop where
  shield : bankSignal t.shield = bankSignal s.shield
  eqa : bankSignal t.eqa = bankSignal s.eqa
  eqb : bankSignal t.eqb = bankSignal s.eqb
  dcb : bankSignal t.dcb = bankSignal s.dcb
  disp : dispSignal t.disp = dispSignal s.disp
  satEnv : t.satEnv = s.satEnv
  blendEnv : t.blendEnv = s.blendEnv
  hystH : t.hystH = s.hystH
  hystM : t.hystM = s.hystM
  fadeGain : t.fadeGain = s.fadeGain
  delay : SameDelayLine s t

/-! ### Zero signal state -/

/-- A section's state registers are zeros. -/
def Biquad.silent (b : Biquad) : Bool := F64.isZero b.z1 && F64.isZero b.z2

/-- Every signal register that PROCESS writes is a zero, the fade gain apart (R315). -/
structure State.Silent (s : State) : Prop where
  shield : s.shield.all Biquad.silent = true
  eqa : s.eqa.all Biquad.silent = true
  eqb : s.eqb.all Biquad.silent = true
  dcb : s.dcb.all Biquad.silent = true
  disp : s.disp.all (fun d => F64.isZero d.z) = true
  satEnv : F64.isZero s.satEnv = true
  blendEnv : F64.isZero s.blendEnv = true
  hystH : F64.isZero s.hystH = true
  hystM : F64.isZero s.hystM = true

/-! ### Sequences of samples -/

/-- The outputs of the azimuth delay stage fed a list of samples (R264, R271). -/
def azOutputs : State → List Word → List Word
  | _, [] => []
  | s, p :: ps => (azStep s p).1 :: azOutputs (azStep s p).2 ps

/-- The input of each section of a bank in turn, from the bank's input on, and after them the last section's output
(R152). -/
def bankChain : List Biquad → Word → List Word
  | [], v => [v]
  | b :: bs, v => v :: bankChain bs (bqProcess b v).1

/-- The input of each dispersive stage in turn, and after them the last stage's output (R186). -/
def dispChain : List DispStage → Word → List Word
  | [], v => [v]
  | d :: ds, v => v :: dispChain ds (apProcess d.c d.z v).1

/-! ### The event a step takes -/

/-- The event a step takes is a pulse of `rst_n`. -/
def State.takesReset (s : State) : Prop := s.pending.head? = some .resetPulse

/-- The event a step takes is a `CMD` write that spells the command `i`. -/
def State.takesCommand (s : State) (i : Instr) : Prop :=
  ∃ lanes, s.pending.head? = some (.write 0x00 lanes) ∧ decodeBytes lanes = .ok i

/-- The event a step takes is a host write at an offset. -/
def State.takesWrite (s : State) (offset : Nat) : Prop :=
  ∃ lanes, s.pending.head? = some (.write offset lanes)

/-- The event a step takes is a host read. -/
def State.takesRead (s : State) : Prop := ∃ offset width, s.pending.head? = some (.read offset width)

end Sys2Proof.Machine
end

