-- ==== Sys2Proof/Certificates/Slice0/Obligations.lean ====
section
/-! DEFINITION. The statements about BQC-ATR for the provers. `s` is a state before, `t` a state after. -/

open Sys2Proof Sys2Proof.Machine

/-! ### Encoding (spec/30_encoding.md) -/

/-- R107: the decoder reads a command from a word exactly when the command is well formed and its encoding is that word;
so no two commands share a word, and no bit of a word is dropped. -/
def Obligations.DecodeInvertsEncode : Prop :=
  ∀ (w : CmdWord) (i : Instr), decode w = .ok i ↔ i.wellFormed = true ∧ encode i = w

/-- R85, R100: the four lanes of a command's word, lowest offset first, decode to the command. -/
def Obligations.RoundTripBytes : Prop :=
  ∀ i : Instr, i.wellFormed = true →
    (encodeBytes i).length = 4 ∧ decodeBytes (encodeBytes i) = .ok i ∧
    decodeTableWord 32 (encode i).toNat = some i

/-- R106: the match and mask columns of the opcode map, and that a word spells a row's command if and only if
`(w & mask) == match`. -/
def Obligations.WordSpellsRow : Prop :=
  (∀ (w : CmdWord) (i : Instr), i.wellFormed = true →
    (w &&& rowMask i = rowMatch i ↔ ∃ j, decode w = .ok j ∧ opcode j = opcode i)) ∧
  (rowMatch .nop = 0x00000000#32 ∧ rowMask .nop = 0xFFFFFFFF#32) ∧
  (rowMatch .configure = 0x01000000#32 ∧ rowMask .configure = 0xFFFFFFFF#32) ∧
  (∀ f, rowMatch (.setProfile f) = 0x02000000#32 ∧ rowMask (.setProfile f) = 0xFFFFFFFE#32) ∧
  (rowMatch .reset = 0x03000000#32 ∧ rowMask .reset = 0xFFFFFFFF#32) ∧
  (rowMatch .process = 0x04000000#32 ∧ rowMask .process = 0xFFFFFFFF#32) ∧
  (rowMatch .process2 = 0x05000000#32 ∧ rowMask .process2 = 0xFFFFFFFF#32) ∧
  (∀ a, rowMatch (.rdReg a) = 0x06000000#32 ∧ rowMask (.rdReg a) = 0xFFFFF000#32) ∧
  (rowMatch .calSatA3 = 0x10000000#32 ∧ rowMask .calSatA3 = 0xFFFFFFFF#32) ∧
  (rowMatch .calPower = 0x11000000#32 ∧ rowMask .calPower = 0xFFFFFFFF#32) ∧
  (rowMatch .calLowScale = 0x12000000#32 ∧ rowMask .calLowScale = 0xFFFFFFFF#32) ∧
  (rowMatch .calBlendRatio = 0x13000000#32 ∧ rowMask .calBlendRatio = 0xFFFFFFFF#32) ∧
  (rowMatch .calLowThresh = 0x14000000#32 ∧ rowMask .calLowThresh = 0xFFFFFFFF#32) ∧
  (rowMatch .calCurvePower = 0x15000000#32 ∧ rowMask .calCurvePower = 0xFFFFFFFF#32) ∧
  (rowMatch .calKneeThresh = 0x16000000#32 ∧ rowMask .calKneeThresh = 0xFFFFFFFF#32) ∧
  (rowMatch .calKneeAmount = 0x17000000#32 ∧ rowMask .calKneeAmount = 0xFFFFFFFF#32)

/-- R108: a word is illegal exactly when its opcode is 0x07 to 0x0F or 0x18 to 0xFF, or a field its format requires to
be zero is not: bits [23:1] of format F, bits [23:12] of format A, bits [23:0] of format N. -/
def Obligations.IllegalEncodings : Prop :=
  ∀ w : CmdWord, (∃ e, decode w = .error e) ↔
    ((0x07 ≤ (w.extractLsb' 24 8).toNat ∧ (w.extractLsb' 24 8).toNat ≤ 0x0F) ∨
     (0x18 ≤ (w.extractLsb' 24 8).toNat ∧ (w.extractLsb' 24 8).toNat ≤ 0xFF) ∨
     (w.extractLsb' 24 8 = 0x02#8 ∧ w.extractLsb' 1 23 ≠ 0#23) ∨
     (w.extractLsb' 24 8 = 0x06#8 ∧ w.extractLsb' 12 12 ≠ 0#12) ∨
     (w.extractLsb' 24 8 ≠ 0x02#8 ∧ w.extractLsb' 24 8 ≠ 0x06#8 ∧ w.extractLsb' 0 24 ≠ 0#24))

/-- Words written out from the formats of R101 to R103 decode to the commands they stand for. -/
def Obligations.SampleWordsDecode : Prop :=
  decode 0x00000000#32 = .ok .nop ∧ decode 0x01000000#32 = .ok .configure ∧
  decode 0x02000000#32 = .ok (.setProfile .f1) ∧ decode 0x02000001#32 = .ok (.setProfile .f2) ∧
  decode 0x03000000#32 = .ok .reset ∧ decode 0x04000000#32 = .ok .process ∧
  decode 0x05000000#32 = .ok .process2 ∧ decode 0x0600001C#32 = .ok (.rdReg 0x01C) ∧
  decode 0x10000000#32 = .ok .calSatA3 ∧ decode 0x17000000#32 = .ok .calKneeAmount ∧
  decode 0x07000000#32 = .error .unassignedOpcode ∧ decode 0x04000001#32 = .error .nonzeroReserved

/-! ### The step and the host window (spec/20_memory.md) -/

/-- A step whose event is a `CMD` write that spells a command latches the word and runs the command (R340); so does the
step from `withFetchWord` for every well-formed command. -/
def Obligations.StepRunsCommand : Prop :=
  (∀ (s : State) (lanes : List Byte) (rest : List HostEvent) (i : Instr),
    s.pending = .write 0x00 lanes :: rest → decodeBytes lanes = .ok i →
    step s = exec i { s with pending := rest, cmd := cmdOfLanes lanes }) ∧
  (∀ (s : State) (i : Instr), i.wellFormed = true →
    step (s.withFetchWord 32 (encode i).toNat) = exec i { s with cmd := encode i })

/-- R107, R404: a `CMD` write of a word that spells no command raises ILLEGAL_CMD, or is refused while a fault is
pending; the word stands in `CMD` and nothing else changes. -/
def Obligations.IllegalWordStep : Prop :=
  ∀ (s : State) (w : CmdWord) (rest : List HostEvent) (e : Illegal),
    s.pending = .write 0x00 (toLanes 4 w.toNat) :: rest → decode w = .error e →
    (s.fault = none →
      step s = .next { s with pending := rest, cmd := w, fault := some .illegalCmd, ack := .fault }) ∧
    (s.fault.isSome = true → step s = .next { s with pending := rest, cmd := w, ack := .refused })

/-- R86, R416: the six admitted accesses of the host window complete, whatever command they carry; every other width,
alignment or offset stops the model. That the admitted access at offset 0x04 is 32 bits wide is read from R84
(notes/assumptions/9.md). With no access waiting, the block waits (R432). -/
def Obligations.AdmittedAccessesComplete : Prop :=
  ∀ (s : State) (rest : List HostEvent) (offset : Nat) (lanes : List Byte) (width : Nat),
    (s.pending = [] → step s = .next s) ∧
    (s.pending = .write offset lanes :: rest →
      if (offset, lanes.length) ∈ [(0x00, 4), (0x04, 4), (0x08, 8), (0x10, 8), (0x18, 8), (0x20, 8)] then
        ∃ t, step s = .next t ∧ t.pending = rest
      else step s = .fault (.inadmissibleAccess offset lanes.length)) ∧
    (s.pending = .read offset width :: rest →
      if (offset, width) ∈ [(0x00, 4), (0x04, 4), (0x08, 8), (0x10, 8), (0x18, 8), (0x20, 8)] then
        ∃ t, step s = .next t ∧ t.pending = rest
      else step s = .fault (.inadmissibleAccess offset width))

/-- R84, R85, R87: a write to `OP0` or `OP1` stores the 64 bits, lane `i` in bits [8i+7:8i], and nothing else; a write to
`RES`, `STATUS` or offset 0x04 changes nothing. That the 32-bit write at offset 0x04 is admitted is the model's reading of
R84 (notes/assumptions/9.md, DEDUCED). -/
def Obligations.WindowWrites : Prop :=
  ∀ (s : State) (rest : List HostEvent) (lanes : List Byte),
    (s.pending = .write 0x08 lanes :: rest → lanes.length = 8 →
      ∃ v : Word, step s = .next { s with pending := rest, op0 := v } ∧
        ∀ i < 8, lanes[i]? = some (v.extractLsb' (8 * i) 8)) ∧
    (s.pending = .write 0x10 lanes :: rest → lanes.length = 8 →
      ∃ v : Word, step s = .next { s with pending := rest, op1 := v } ∧
        ∀ i < 8, lanes[i]? = some (v.extractLsb' (8 * i) 8)) ∧
    ((s.pending = .write 0x18 lanes :: rest ∨ s.pending = .write 0x20 lanes :: rest) → lanes.length = 8 →
      step s = .next { s with pending := rest }) ∧
    (s.pending = .write 0x04 lanes :: rest → lanes.length = 4 → step s = .next { s with pending := rest })

/-- R84, R85, R87, R89: a host read returns the register's bits [8i+7:8i] in lane `i` and changes no state of the block.
That the 32-bit read at offset 0x04 is admitted is the model's reading of R84 (notes/assumptions/9.md, DEDUCED). -/
def Obligations.WindowReads : Prop :=
  ∀ (s : State) (rest : List HostEvent),
    (s.pending = .read 0x00 4 :: rest → ∃ l, step s = .next { s with pending := rest, rdata := l } ∧
      l.length = 4 ∧ ∀ i < 4, l[i]? = some (s.cmd.extractLsb' (8 * i) 8)) ∧
    (s.pending = .read 0x04 4 :: rest → step s = .next { s with pending := rest, rdata := [0, 0, 0, 0] }) ∧
    (∀ off v, (off = 0x08 ∧ v = s.op0) ∨ (off = 0x10 ∧ v = s.op1) ∨ (off = 0x18 ∧ v = s.res) ∨
        (off = 0x20 ∧ v = statusWord s) →
      s.pending = .read off 8 :: rest → ∃ l, step s = .next { s with pending := rest, rdata := l } ∧
        l.length = 8 ∧ ∀ i < 8, l[i]? = some (v.extractLsb' (8 * i) 8))

/-- R430: a pulse of `rst_n` leaves every element at the value of the table, whatever the state before. That the
parameters, the accesses still waiting and what the host last read stay is the model's choice
(notes/assumptions/1.md and 8.md, DESIGN CHOICE). -/
def Obligations.HardwareReset : Prop :=
  ∀ (s : State) (rest : List HostEvent), s.pending = .resetPulse :: rest →
    ∃ t, step s = .next t ∧ t.pending = rest ∧ t.par = s.par ∧ t.rdata = s.rdata ∧
      t.blockState = .uninitialized ∧ t.fault = none ∧ t.ack = .ok ∧ statusWord t = 0x100#64 ∧
      faultOut t = false ∧
      t.fs = Lit.zero ∧ t.bias = Lit.one ∧ t.ingain = Lit.one ∧ t.profile = .A ∧ t.formula = .f1 ∧
      t.tuning = ⟨Lit.zero, Lit.zero, Lit.zero, Lit.zero, Lit.zero, Lit.zero, Lit.zero, Lit.zero, Lit.zero,
        Lit.zero, Lit.zero⟩ ∧
      (t.shield.length = 3 ∧ t.eqa.length = s.par.eqN .A ∧ t.eqb.length = s.par.eqN .B ∧ t.dcb.length = 2 ∧
        ∀ b, b ∈ t.shield ∨ b ∈ t.eqa ∨ b ∈ t.eqb ∨ b ∈ t.dcb →
          b = ⟨⟨Lit.zero, Lit.zero, Lit.zero, Lit.zero, Lit.zero⟩, Lit.zero, Lit.zero⟩) ∧
      t.shieldNorm = Lit.zero ∧
      (t.disp.length = s.par.nDisp.val ∧ ∀ d ∈ t.disp, d = ⟨Lit.zero, Lit.zero, Lit.zero⟩) ∧
      t.satEnv = Lit.zero ∧ t.blendEnv = Lit.zero ∧ t.blendAtt = Lit.zero ∧ t.blendRel = Lit.zero ∧
      t.fadeGain = Lit.zero ∧ t.fadeInc = Lit.zero ∧
      t.azDelay = Lit.zero ∧ t.azFrac = Lit.zero ∧ t.azCoeff = Lit.zero ∧ t.azZ = Lit.zero ∧
      t.azInt = 0 ∧ t.azWidx = 0 ∧ (∀ i, ringRead t.mem i = Lit.zero) ∧
      t.hystH = Lit.zero ∧ t.hystM = Lit.zero ∧
      t.cmd = 0#32 ∧ t.op0 = 0#64 ∧ t.op1 = 0#64 ∧ t.res = 0#64 ∧
      regRead t 0x000 = some 0x0000000042514331#64 ∧
      regRead t 0x020 = some (BitVec.ofNat 64 (s.par.eqN .A)) ∧
      regRead t 0x021 = some (BitVec.ofNat 64 (s.par.eqN .B)) ∧
      regRead t 0x022 = some (BitVec.ofNat 64 s.par.nDisp.val) ∧ regRead t 0x023 = some 16#64

/-! ### Status, constants and the register space (spec/10_state.md) -/

/-- R33: the fields of STATUS, its reserved bits, and the address at which RD_REG finds it. -/
def Obligations.StatusLayout : Prop :=
  ∀ s : State,
    ((statusWord s).getLsbD 0 = true ↔ s.blockState = .ready) ∧
    ((statusWord s).getLsbD 1 = true ↔ s.fault.isSome = true) ∧
    (statusWord s).extractLsb' 2 2 = 0#2 ∧
    (statusWord s).extractLsb' 4 4 =
      (match s.fault with
      | none => 0#4
      | some .illegalCmd => 1#4
      | some .unconfigured => 2#4
      | some .badRate => 3#4
      | some .badDesign => 4#4
      | some .badOperand => 5#4
      | some .badAddr => 6#4) ∧
    ((statusWord s).getLsbD 8 = true ↔ s.profile = .A) ∧
    ((statusWord s).getLsbD 9 = true ↔ s.formula = .f2) ∧
    ((statusWord s).getLsbD 10 = true ↔ F64.eq s.fadeGain Lit.one = true) ∧
    (statusWord s).getLsbD 11 = false ∧
    (statusWord s).extractLsb' 12 2 = (match s.ack with | .ok => 0#2 | .fault => 1#2 | .refused => 2#2) ∧
    (statusWord s).extractLsb' 14 50 = 0#50 ∧
    regRead s 0x001 = some (statusWord s)

/-- R45: the count registers equal their parameters, and no step, a command or a reset, changes a parameter; R31: so does
the identifier read as its constant. -/
def Obligations.CountRegistersConstant : Prop :=
  (∀ s : State, regRead s 0x000 = some 0x0000000042514331#64 ∧
    regRead s 0x020 = some (BitVec.ofNat 64 (s.par.eqN .A)) ∧
    regRead s 0x021 = some (BitVec.ofNat 64 (s.par.eqN .B)) ∧
    regRead s 0x022 = some (BitVec.ofNat 64 s.par.nDisp.val) ∧ regRead s 0x023 = some 16#64) ∧
  (∀ s t : State, step s = .next t → t.par = s.par)

/-- R48: which of the 4096 addresses are mapped, in a state whose banks have the lengths of R39 and R40. -/
def Obligations.RegisterMapDomain : Prop :=
  ∀ (s : State) (a : Nat), s.shapeOk = true →
    ((regRead s a).isSome = true ↔
      a ≤ 0x1E ∨ (0x20 ≤ a ∧ a ≤ 0x23) ∨
      (∃ sec j, sec < 3 ∧ j < 7 ∧ a = 0x100 + 8 * sec + j) ∨
      (∃ sec j, sec < s.par.eqN .A ∧ j < 7 ∧ a = 0x200 + 8 * sec + j) ∨
      (∃ sec j, sec < s.par.eqN .B ∧ j < 7 ∧ a = 0x300 + 8 * sec + j) ∨
      (∃ sec j, sec < 2 ∧ j < 7 ∧ a = 0x400 + 8 * sec + j) ∨
      (∃ k j, k < s.par.nDisp.val ∧ j < 3 ∧ a = 0x500 + 4 * k + j) ∨
      (∃ i, i < 16 ∧ a = 0x600 + i))

/-- R48, R81: what each mapped address reads as. -/
def Obligations.RegisterMapValues : Prop :=
  ∀ s : State, s.shapeOk = true →
    [0x000, 0x001].map (regRead s) = [0x0000000042514331#64, statusWord s].map some ∧
    [0x020, 0x021, 0x022, 0x023].map (regRead s) =
      [BitVec.ofNat 64 (s.par.eqN .A), BitVec.ofNat 64 (s.par.eqN .B), BitVec.ofNat 64 s.par.nDisp.val,
        16#64].map some ∧
    [0x002, 0x003, 0x004].map (regRead s) = [s.fs, s.bias, s.ingain].map some ∧
    [0x005, 0x006, 0x007, 0x008, 0x009, 0x00A, 0x00B, 0x00C, 0x00D, 0x00E, 0x00F].map (regRead s) =
      [s.tuning.satA3, s.tuning.satPower, s.tuning.lowScale, s.tuning.blendRatio, s.tuning.lowThresh,
        s.tuning.curvePower, s.tuning.kneeThresh, s.tuning.kneeAmount, s.tuning.dcBias, s.tuning.outScale,
        s.tuning.msScale].map some ∧
    [0x010, 0x011, 0x012, 0x013, 0x014, 0x015, 0x016, 0x017].map (regRead s) =
      [s.satEnv, s.blendEnv, s.blendAtt, s.blendRel, s.fadeGain, s.fadeInc, s.shieldNorm, s.azDelay].map some ∧
    [0x018, 0x019, 0x01A, 0x01B, 0x01C, 0x01D, 0x01E].map (regRead s) =
      [BitVec.ofNat 64 s.azInt.val, s.azFrac, s.azCoeff, s.azZ, BitVec.ofNat 64 s.azWidx.val, s.hystH,
        s.hystM].map some ∧
    (∀ base bank, (base = 0x100 ∧ bank = s.shield) ∨ (base = 0x200 ∧ bank = s.eqa) ∨
        (base = 0x300 ∧ bank = s.eqb) ∨ (base = 0x400 ∧ bank = s.dcb) →
      ∀ (sec : Nat) (b : Biquad), bank[sec]? = some b →
        [0, 1, 2, 3, 4, 5, 6].map (fun j => regRead s (base + 8 * sec + j)) =
          [b.co.b0, b.co.b1, b.co.b2, b.co.a1, b.co.a2, b.z1, b.z2].map some) ∧
    (∀ (k : Nat) (d : DispStage), s.disp[k]? = some d →
      [0, 1, 2].map (fun j => regRead s (0x500 + 4 * k + j)) = [d.freq, d.c, d.z].map some) ∧
    (∀ i : Fin 16, regRead s (0x600 + i.val) = some (ringRead s.mem i))

/-! ### NOP, RESET and RD_REG (spec/47_commands.md) -/

/-- R341: NOP completes in every state, writes ACK only, and leaves STATUS = 0x100 after hardware reset. -/
def Obligations.NopCompletes : Prop :=
  encode .nop = 0x00000000#32 ∧
  (∀ s : State, exec .nop s = .next { s with ack := .ok }) ∧
  (∀ (s t : State), exec .nop s = .next t → ∀ a, Memory.readByte t.mem a = Memory.readByte s.mem a) ∧
  (∀ (P : Params) (t : State), exec .nop (State.resetWith P) = .next t → statusWord t = 0x100#64)

/-- R343: with no fault pending RESET completes in either state, puts every signal-state element of R46 c at +0.0 (0 for
the pointer and every ring byte), and changes nothing else; a second RESET changes nothing. -/
def Obligations.ResetZeroesSignalState : Prop :=
  encode .reset = 0x03000000#32 ∧
  ∀ s : State, s.fault = none →
    ∃ t, exec .reset s = .next t ∧
      (∀ b, b ∈ t.shield ∨ b ∈ t.eqa ∨ b ∈ t.eqb ∨ b ∈ t.dcb → b.z1 = Lit.zero ∧ b.z2 = Lit.zero) ∧
      (∀ d ∈ t.disp, d.z = Lit.zero) ∧
      t.satEnv = Lit.zero ∧ t.blendEnv = Lit.zero ∧ t.hystH = Lit.zero ∧ t.hystM = Lit.zero ∧
      (∀ i, ringRead t.mem i = Lit.zero) ∧ (∀ a, Memory.readByte t.mem a = 0#8) ∧
      t.azZ = Lit.zero ∧ t.azWidx = 0 ∧ t.fadeGain = Lit.zero ∧ t.fadeDone = false ∧
      t.ack = .ok ∧ t.fault = none ∧ t.res = s.res ∧ t.blockState = s.blockState ∧
      SameHost s t ∧ SameSettings s t ∧ SameCoeffs s t ∧
      exec .reset t = .next t

/-- R346, R404: RD_REG of a mapped address writes `RES` only, in either state and while a fault is pending too. -/
def Obligations.RdRegCompletes : Prop :=
  ∀ (s : State) (a : Nat) (v : Word), regRead s a = some v →
    exec (.rdReg a) s = .next { s with res := v, ack := .ok } ∧
    ∀ b, Memory.readByte ({ s with res := v, ack := .ok } : State).mem b = Memory.readByte s.mem b

/-- R83, R340, R404: RD_REG of an unmapped address raises BAD_ADDR and leaves `RES` as it was; while a fault is pending
only ACK shows it. -/
def Obligations.RdRegUnmapped : Prop :=
  ∀ (s : State) (a : Nat), regRead s a = none →
    (s.fault = none → exec (.rdReg a) s = .next { s with fault := some .badAddr, ack := .fault }) ∧
    (s.fault.isSome = true → exec (.rdReg a) s = .next { s with ack := .fault })

/-! ### CONFIGURE and SET_PROFILE -/

/-- R342, R348, R349: with no fault pending, a finite positive rate and a recomputation that does not fail, CONFIGURE
writes `FS`, every coefficient and the tuning registers, and enters state Ready; no signal state, no setting, no operand
and no byte of the ring changes. -/
def Obligations.ConfigureCompletes : Prop :=
  ∀ (s : State) (r : RateSet) (p : ProfileSet), s.fault = none → s.shapeOk = true →
    F64.isFinite s.op0 = true → F64.lt Lit.zero s.op0 = true →
    recomputeFull s.par s.op0 s.profile s.formula = some (r, p) →
    ∃ t, exec .configure s = .next t ∧ t.fs = s.op0 ∧ t.blockState = .ready ∧ t.ack = .ok ∧ t.fault = none ∧
      t.HoldsRate r ∧ t.HoldsProfile p ∧ t.tuning = s.par.tuning s.profile s.formula ∧
      SameSignal s t ∧ SameHost s t ∧ t.res = s.res ∧
      t.bias = s.bias ∧ t.ingain = s.ingain ∧ t.profile = s.profile ∧ t.formula = s.formula

/-- R342: CONFIGURE raises BAD_RATE for a rate that is not finite or not positive, and BAD_DESIGN when the recomputation
fails; the fault is precise. -/
def Obligations.ConfigureFaults : Prop :=
  ∀ s : State, s.fault = none →
    (F64.isFinite s.op0 = false ∨ F64.le s.op0 Lit.zero = true →
      exec .configure s = .next { s with fault := some .badRate, ack := .fault }) ∧
    (F64.isFinite s.op0 = true → F64.lt Lit.zero s.op0 = true →
      recomputeFull s.par s.op0 s.profile s.formula = none →
      exec .configure s = .next { s with fault := some .badDesign, ack := .fault })

/-- R342: a rate of 10 Hz or less always fails, because the 5 Hz of the DC blocker must be below half of it. -/
def Obligations.ConfigureTenHertzFails : Prop :=
  ∀ s : State, s.fault = none → F64.isFinite s.op0 = true → F64.lt Lit.zero s.op0 = true →
    F64.le s.op0 Lit.ten = true →
    exec .configure s = .next { s with fault := some .badDesign, ack := .fault }

/-- R347: SET_PROFILE in state Uninitialized, or with nothing changed, stores the settings and nothing else: calibration
values survive. -/
def Obligations.SetProfileStoresSettings : Prop :=
  ∀ (s : State) (f : Formula), s.fault = none → F64.isFinite s.op0 = true → F64.isFinite s.op1 = true →
    (s.blockState = .uninitialized ∨
      (profileOf s.par (clampedBias s.op0) = s.profile ∧ f = s.formula ∧
        (s.par.gainTriggersRecompute = false ∨ F64.eq s.op1 s.ingain = true))) →
    exec (.setProfile f) s = .next { s with
      bias := clampedBias s.op0, ingain := s.op1, profile := profileOf s.par (clampedBias s.op0), formula := f
      ack := .ok } ∧
    ∀ t, exec (.setProfile f) s = .next t → SameSignal s t ∧ SameCoeffs s t

/-- R347, R348, R349: SET_PROFILE in state Ready with the profile, the formula or the gain changed derives the
profile-dependent coefficients and the tuning anew; no signal state, no rate-dependent coefficient and no byte of the
ring changes. -/
def Obligations.SetProfileRecomputes : Prop :=
  ∀ (s : State) (f : Formula) (q : ProfileSet), s.fault = none → s.shapeOk = true → s.blockState = .ready →
    F64.isFinite s.op0 = true → F64.isFinite s.op1 = true →
    (profileOf s.par (clampedBias s.op0) ≠ s.profile ∨ f ≠ s.formula ∨
      (s.par.gainTriggersRecompute = true ∧ F64.eq s.op1 s.ingain = false)) →
    recomputeProfile s.par s.fs (profileOf s.par (clampedBias s.op0)) f = some q →
    ∃ t, exec (.setProfile f) s = .next t ∧ t.bias = clampedBias s.op0 ∧ t.ingain = s.op1 ∧
      t.profile = profileOf s.par (clampedBias s.op0) ∧ t.formula = f ∧ t.ack = .ok ∧ t.fault = none ∧
      t.HoldsProfile q ∧ t.tuning = s.par.tuning (profileOf s.par (clampedBias s.op0)) f ∧
      SameRate s t ∧ SameSignal s t ∧ SameHost s t ∧ t.res = s.res ∧ t.fs = s.fs ∧ t.blockState = .ready

/-- R347, R405: SET_PROFILE raises BAD_OPERAND for an operand that is not finite, before any design; and BAD_DESIGN when
the recomputation fails, and then no register is written, the settings included. -/
def Obligations.SetProfileFaults : Prop :=
  ∀ (s : State) (f : Formula), s.fault = none →
    (F64.isFinite s.op0 = false ∨ F64.isFinite s.op1 = false →
      exec (.setProfile f) s = .next { s with fault := some .badOperand, ack := .fault }) ∧
    (F64.isFinite s.op0 = true → F64.isFinite s.op1 = true → s.blockState = .ready →
      (profileOf s.par (clampedBias s.op0) ≠ s.profile ∨ f ≠ s.formula ∨
        (s.par.gainTriggersRecompute = true ∧ F64.eq s.op1 s.ingain = false)) →
      recomputeProfile s.par s.fs (profileOf s.par (clampedBias s.op0)) f = none →
      exec (.setProfile f) s = .next { s with fault := some .badDesign, ack := .fault })

/-- R347, R47(5): the stored bias is the operand clamped to [0, 1], and Profile A is selected at or above 0.74, the
default side of R7. Which zero is stored for −0.0 is a free value (notes/assumptions/4.md); that the other value of the
parameter selects Profile A below 0.74 is the model's choice (notes/assumptions/11.md, DESIGN CHOICE). -/
def Obligations.BiasClampAndThreshold : Prop :=
  ∀ (P : Params) (b : Word), F64.isFinite b = true →
    inUnit (clampedBias b) = true ∧
    (F64.lt b Lit.zero = true → clampedBias b = Lit.zero) ∧
    (F64.lt Lit.zero b = true → F64.lt b Lit.one = true → clampedBias b = b) ∧
    (F64.le Lit.one b = true → clampedBias b = Lit.one) ∧
    (profileOf P (clampedBias b) = .A ↔ F64.le 0x3FE7AE147AE147AE#64 b = P.profileAAtOrAbove)

/-! ### PROCESS and PROCESS2 (spec/46_pipeline.md, spec/44_thiran_delay.md) -/

/-- R344, R312, R313, R270, R155: in state Ready with no fault pending PROCESS runs the pipeline on `OP0`, puts its
output in `RES`, advances the fade gain, and writes the registers of R313 alone: no coefficient, no setting, no register
of the inactive EQ bank, no byte of the ring. -/
def Obligations.ProcessCompletes : Prop :=
  ∀ s : State, s.fault = none → s.blockState = .ready →
    ∃ t, exec .process s = .next t ∧ t.res = (pipeline s s.op0).1 ∧ t.ack = .ok ∧
      t = { (pipeline s s.op0).2 with res := t.res, ack := .ok } ∧
      t.fadeGain = F64.min Lit.one (F64.add s.fadeGain s.fadeInc) ∧
      (s.profile = .A → t.eqb = s.eqb) ∧ (s.profile = .B → t.eqa = s.eqa) ∧
      SameHost s t ∧ SameSettings s t ∧ SameCoeffs s t ∧ SameDelayLine s t ∧
      t.blockState = .ready ∧ t.fault = none

/-- R345, R264: PROCESS2 runs the pipeline and then the azimuth delay on its output `p`: the ring word at the write
pointer becomes `p`, the word `AZ_INT` behind it is read, delayed by the fraction unless that is below 0.1, and the
pointer advances modulo 16. Every other register holds what the pipeline left in it. No byte of memory but the eight of the
word written changes. -/
def Obligations.Process2Completes : Prop :=
  ∀ s : State, s.fault = none → s.blockState = .ready → Memory.wf s.mem = true →
    ∃ t r, exec .process2 s = .next t ∧ t.ack = .ok ∧
      t = { (pipeline s s.op0).2 with mem := t.mem, azZ := t.azZ, azWidx := t.azWidx, res := t.res, ack := .ok } ∧
      ringRead t.mem s.azWidx = (pipeline s s.op0).1 ∧
      (∀ i, i ≠ s.azWidx → ringRead t.mem i = ringRead s.mem i) ∧
      (∀ a, a < ringAddr s.azWidx ∨ ringAddr s.azWidx + 8 ≤ a →
        Memory.readByte t.mem a = Memory.readByte s.mem a) ∧
      r = ringRead t.mem (Fin.ofNat 16 (s.azWidx.val + 16 - s.azInt.val)) ∧
      (F64.lt s.azFrac Config.thiranMinFrac = true → t.res = r ∧ t.azZ = s.azZ) ∧
      (F64.lt s.azFrac Config.thiranMinFrac = false →
        if F64.isFinite (apProcess s.azCoeff s.azZ r).1 = true ∧ F64.isFinite (apProcess s.azCoeff s.azZ r).2 = true
        then t.res = (apProcess s.azCoeff s.azZ r).1 ∧ t.azZ = (apProcess s.azCoeff s.azZ r).2
        else t.res = r ∧ t.azZ = s.azZ) ∧
      t.azWidx.val = (s.azWidx.val + 1) % 16 ∧
      t.fadeGain = F64.min Lit.one (F64.add s.fadeGain s.fadeInc) ∧
      (s.profile = .A → t.eqb = s.eqb) ∧ (s.profile = .B → t.eqa = s.eqa) ∧
      SameHost s t ∧ SameSettings s t ∧ SameCoeffs s t ∧ t.blockState = .ready ∧ t.fault = none

/-- R344, R345: PROCESS and PROCESS2 raise UNCONFIGURED in state Uninitialized, and the fault is precise. -/
def Obligations.ProcessUnconfigured : Prop :=
  ∀ s : State, s.fault = none → s.blockState = .uninitialized →
    exec .process s = .next { s with fault := some .unconfigured, ack := .fault } ∧
    exec .process2 s = .next { s with fault := some .unconfigured, ack := .fault }

/-- R314: for every input sample, finite or not, the pipeline's output is finite, in every state whose fade gain lies in
[0, 1]. -/
def Obligations.PipelineFinite : Prop :=
  ∀ (s : State) (x : Word), inUnit s.fadeGain = true → F64.isFinite (pipeline s x).1 = true

/-- R312, R343: with the fade gain at +0.0, as RESET leaves it, the output sample of PROCESS is a zero, whatever the
input and the rest of the state. -/
def Obligations.FirstSampleAfterReset : Prop :=
  ∀ s t u : State, s.fault = none → s.blockState = .ready → exec .reset s = .next t →
    ∀ x, exec .process { t with op0 := x } = .next u → F64.isZero u.res = true

/-- R315: with zero signal state, a zero sample and no DC bias, PROCESS returns a zero and leaves the signal state zero,
for a solver with the zero fixed point of R289 at its arguments; so does PROCESS2 with a zero delay line, which stays
zero. -/
def Obligations.SilenceInvariance : Prop :=
  ∀ s : State, s.fault = none → s.blockState = .ready → s.Inv → s.Silent →
    F64.isZero s.op0 = true → F64.isZero s.tuning.dcBias = true →
    (∀ H, F64.isZero H = true →
      let r := jaSolve s.par.solver s.par.numlib (s.par.ja s.formula) (effectiveMs s) s.fs s.hystH s.hystM H
      F64.isZero r.hn = true ∧ F64.isZero r.mn = true ∧ F64.isZero r.out = true) →
    (∀ t, exec .process s = .next t → F64.isZero t.res = true ∧ t.Silent) ∧
    ((∀ i, F64.isZero (ringRead s.mem i) = true) → F64.isZero s.azZ = true →
      ∀ u, exec .process2 s = .next u → F64.isZero u.res = true ∧ u.Silent ∧
        (∀ i, F64.isZero (ringRead u.mem i) = true) ∧ F64.isZero u.azZ = true)

/-! ### Calibration (spec/47_commands.md, section 4) -/

/-- R350 to R357: with no fault pending each calibration command writes its own tuning register from a finite `OP0` and
nothing else, in either state, and raises BAD_OPERAND for an `OP0` that is not finite. -/
def Obligations.CalibrationCommands : Prop :=
  ∀ s : State, s.fault = none →
    (F64.isFinite s.op0 = true →
      exec .calSatA3 s = .next { s with tuning := { s.tuning with satA3 := s.op0 }, ack := .ok } ∧
      exec .calPower s = .next { s with tuning := { s.tuning with satPower := s.op0 }, ack := .ok } ∧
      exec .calLowScale s = .next { s with tuning := { s.tuning with lowScale := s.op0 }, ack := .ok } ∧
      exec .calBlendRatio s = .next { s with tuning := { s.tuning with blendRatio := s.op0 }, ack := .ok } ∧
      exec .calLowThresh s = .next { s with tuning := { s.tuning with lowThresh := s.op0 }, ack := .ok } ∧
      exec .calCurvePower s = .next { s with tuning := { s.tuning with curvePower := s.op0 }, ack := .ok } ∧
      exec .calKneeThresh s = .next { s with tuning := { s.tuning with kneeThresh := s.op0 }, ack := .ok } ∧
      exec .calKneeAmount s = .next { s with tuning := { s.tuning with kneeAmount := s.op0 }, ack := .ok } ∧
      ∀ i ∈ [Instr.calSatA3, .calPower, .calLowScale, .calBlendRatio, .calLowThresh, .calCurvePower,
          .calKneeThresh, .calKneeAmount],
        ∀ t, exec i s = .next t → ∀ a, Memory.readByte t.mem a = Memory.readByte s.mem a) ∧
    (F64.isFinite s.op0 = false →
      ∀ i ∈ [Instr.calSatA3, .calPower, .calLowScale, .calBlendRatio, .calLowThresh, .calCurvePower,
          .calKneeThresh, .calKneeAmount],
        exec i s = .next { s with fault := some .badOperand, ack := .fault }) ∧
    (encode .calSatA3 = 0x10000000#32 ∧ encode .calPower = 0x11000000#32 ∧ encode .calLowScale = 0x12000000#32 ∧
      encode .calBlendRatio = 0x13000000#32 ∧ encode .calLowThresh = 0x14000000#32 ∧
      encode .calCurvePower = 0x15000000#32 ∧ encode .calKneeThresh = 0x16000000#32 ∧
      encode .calKneeAmount = 0x17000000#32)

/-! ### Faults (spec/60_exceptions.md) -/

/-- R404: while a fault is pending NOP completes, RD_REG of a mapped address completes, RD_REG of an unmapped one shows
ACK = FAULT alone, and every other word, legal or illegal, shows ACK = REFUSED alone. -/
def Obligations.FaultPendingBehaviour : Prop :=
  ∀ s : State, s.fault.isSome = true →
    exec .nop s = .next { s with ack := .ok } ∧
    (∀ a v, regRead s a = some v → exec (.rdReg a) s = .next { s with res := v, ack := .ok }) ∧
    (∀ a, regRead s a = none → exec (.rdReg a) s = .next { s with ack := .fault }) ∧
    (∀ i, i ≠ .nop → (∀ a, i ≠ .rdReg a) → exec i s = .next { s with ack := .refused }) ∧
    illegalCommand s = { s with ack := .refused }

/-- R402: a command that ends with ACK = FAULT has changed nothing but STATUS, and the first fault's code is kept. -/
def Obligations.FaultsArePrecise : Prop :=
  ∀ (i : Instr) (s t : State), exec i s = .next t → t.ack = .fault →
    ∃ c, t = { s with fault := some (s.fault.getD c), ack := .fault }

/-- R403: NOP and RESET raise no fault, and no PROCESS or PROCESS2 does in state Ready: a recovered event is none. -/
def Obligations.RecoveredEventsRaiseNoFault : Prop :=
  ∀ s t : State, s.fault = none →
    (exec .nop s = .next t ∨ exec .reset s = .next t ∨
      (s.blockState = .ready ∧ (exec .process s = .next t ∨ exec .process2 s = .next t))) →
    t.fault = none ∧ t.ack = .ok

/-- R406: no step but a hardware reset clears a pending fault or changes its code, and hardware reset clears it with the
rest of the state. That the accesses still waiting and what the host last read survive it is the model's choice
(notes/assumptions/8.md, DESIGN CHOICE). -/
def Obligations.FaultIsSticky : Prop :=
  (∀ (s t : State) (c : FaultCode), step s = .next t → s.fault = some c → ¬ s.takesReset → t.fault = some c) ∧
  (∀ s t : State, step s = .next t → s.takesReset →
    t = { State.resetWith s.par with pending := s.pending.tail, rdata := s.rdata } ∧ t.fault = none)

/-- R408: `fault_o` equals STATUS.FAULT; it falls only at hardware reset, and it rises in a step that takes a fault, which
ACK shows, and in no other. -/
def Obligations.FaultOutput : Prop :=
  (∀ s : State, faultOut s = (statusWord s).getLsbD 1) ∧
  (∀ s t : State, step s = .next t → faultOut s = true → faultOut t = false → s.takesReset) ∧
  (∀ s t : State, step s = .next t → faultOut s = false → faultOut t = true → t.ack = .fault) ∧
  (∀ s t : State, step s = .next t → s.takesWrite 0x00 → t.ack = .fault → faultOut t = true) ∧
  (∀ s t : State, step s = .next t → s.takesReset → faultOut t = false)

/-! ### Who writes what (spec/10_state.md) -/

/-- R34: hardware reset sets Uninitialized, a successful CONFIGURE sets Ready, nothing else enters state Ready, and
nothing but hardware reset leaves it; a fault changes `STATE` in neither direction. -/
def Obligations.ReadyState : Prop :=
  (∀ s t : State, step s = .next t → s.takesReset → t.blockState = .uninitialized) ∧
  (∀ s t : State, exec .configure s = .next t → t.ack = .ok → t.blockState = .ready) ∧
  (∀ (i : Instr) (s t : State), exec i s = .next t → t.ack ≠ .ok → t.blockState = s.blockState) ∧
  (∀ s t : State, step s = .next t → s.blockState = .uninitialized → t.blockState = .ready →
    s.takesCommand .configure) ∧
  (∀ s t : State, step s = .next t → s.blockState = .ready → t.blockState = .uninitialized → s.takesReset)

/-- R30, R104: no command writes an operand register, and `RES` is written by PROCESS, PROCESS2 and RD_REG alone; the
operand registers change only by a host write or hardware reset. -/
def Obligations.OperandAndResultRegisters : Prop :=
  (∀ (i : Instr) (s t : State), exec i s = .next t → SameHost s t) ∧
  (∀ s t : State, step s = .next t → t.op0 ≠ s.op0 → s.takesWrite 0x08 ∨ s.takesReset) ∧
  (∀ s t : State, step s = .next t → t.op1 ≠ s.op1 → s.takesWrite 0x10 ∨ s.takesReset) ∧
  (∀ s t : State, step s = .next t → t.res ≠ s.res →
    s.takesCommand .process ∨ s.takesCommand .process2 ∨ (∃ a, s.takesCommand (.rdReg a)) ∨ s.takesReset)

/-- R35: of the settings, `FS` is written by CONFIGURE alone, and the others by SET_PROFILE alone. -/
def Obligations.SettingsWriters : Prop :=
  ∀ s t : State, step s = .next t → ¬ s.takesReset →
    (t.fs ≠ s.fs → s.takesCommand .configure) ∧
    (t.bias ≠ s.bias ∨ t.ingain ≠ s.ingain ∨ t.profile ≠ s.profile ∨ t.formula ≠ s.formula →
      ∃ f, s.takesCommand (.setProfile f))

/-- R38, R40, R37, R441: the filter coefficients change only by a recomputation, that is CONFIGURE or a SET_PROFILE in
state Ready, the rate-dependent ones by CONFIGURE alone; the tuning registers also by a calibration command. -/
def Obligations.CoefficientWriters : Prop :=
  ∀ s t : State, step s = .next t → ¬ s.takesReset →
    (¬ SameRate s t → s.takesCommand .configure) ∧
    (¬ SameShape s t → s.takesCommand .configure ∨ (s.blockState = .ready ∧ ∃ f, s.takesCommand (.setProfile f))) ∧
    (t.tuning ≠ s.tuning → s.takesCommand .configure ∨
      (s.blockState = .ready ∧ ∃ f, s.takesCommand (.setProfile f)) ∨
      s.takesCommand .calSatA3 ∨ s.takesCommand .calPower ∨ s.takesCommand .calLowScale ∨
      s.takesCommand .calBlendRatio ∨ s.takesCommand .calLowThresh ∨ s.takesCommand .calCurvePower ∨
      s.takesCommand .calKneeThresh ∨ s.takesCommand .calKneeAmount)

/-- R91, R43, R46 c: the ring, its pointer and `AZ_Z` change only by PROCESS2 or RESET, the rest of the signal state only
by PROCESS, PROCESS2 or RESET. -/
def Obligations.SignalStateWriters : Prop :=
  ∀ s t : State, s.shapeOk = true → step s = .next t → ¬ s.takesReset →
    (¬ SameDelayLine s t → s.takesCommand .process2 ∨ s.takesCommand .reset) ∧
    (¬ SameSignal s t → s.takesCommand .process ∨ s.takesCommand .process2 ∨ s.takesCommand .reset)

/-- R104: an unused operand register has no effect: `OP1` on any command but SET_PROFILE, and `OP0` too on NOP, RESET and
RD_REG. -/
def Obligations.UnusedOperands : Prop :=
  (∀ (i : Instr) (s t : State) (v : Word), (∀ f, i ≠ .setProfile f) → exec i s = .next t →
    exec i { s with op1 := v } = .next { t with op1 := v }) ∧
  (∀ (i : Instr) (s t : State) (v : Word), i = .nop ∨ i = .reset ∨ (∃ a, i = .rdReg a) → exec i s = .next t →
    exec i { s with op0 := v } = .next { t with op0 := v })

/-! ### Invariants (R47) -/

/-- R47, R430: the state after hardware reset satisfies the invariants, whatever the parameters. -/
def Obligations.InvAtReset : Prop :=
  (∀ P, (State.resetWith P).Inv ∧ (State.resetWith P).Derived) ∧ State.reset.Inv ∧ State.reset.Derived

/-- R47(1), (2), (3), (5) and the first half of (4), with the shapes of R39, R40 and R91: every step keeps them. -/
def Obligations.StepKeepsInv : Prop :=
  ∀ s t : State, s.Inv → step s = .next t → t.Inv

/-- R47(4), second half: in state Ready every coefficient set is the one derived from the current `FS` and configuration,
the calibration registers apart, and every step keeps that. -/
def Obligations.StepKeepsDerived : Prop :=
  ∀ s t : State, s.Derived → step s = .next t → t.Derived

/-- R47(2): the fade gain never decreases except at RESET or hardware reset. -/
def Obligations.FadeGainNeverFalls : Prop :=
  ∀ s t : State, s.Inv → step s = .next t →
    F64.le s.fadeGain t.fadeGain = true ∨ s.takesReset ∨ s.takesCommand .reset

/-! ### The units -/

/-- R152: the sections of a bank run in series on the state from before the command, and either every section commits
its new state or none does and the bank yields its input. -/
def Obligations.BankGuard : Prop :=
  ∀ (bank : List Biquad) (x : Word),
    let c := bankChain bank x
    let next := List.zipWith (fun b v => { b with z1 := (bqProcess b v).2.1, z2 := (bqProcess b v).2.2 }) bank c
    let ok := c.tail.all F64.isFinite && next.all (fun b => F64.isFinite b.z1 && F64.isFinite b.z2)
    bankProcess bank x = if ok then (c.getLastD x, next) else (x, bank)

/-- R186: the dispersive bank as one guarded stage, in the same way. -/
def Obligations.DispersiveGuard : Prop :=
  ∀ (s : State) (x : Word),
    let c := dispChain s.disp x
    let next := List.zipWith (fun d v => { d with z := (apProcess d.c d.z v).2 }) s.disp c
    let ok := c.tail.all F64.isFinite && next.all (fun d => F64.isFinite d.z)
    dispProcess s x = if ok then (c.getLastD x, { s with disp := next }) else (x, s)

/-- R149, R150, R141, R152: a bell or a high shelf designed with a gain of 0 dB has b0 = 1, b1 = a1 and b2 = a2. A section
with such coefficients and zero state is an identity: run as a bank it returns every input of normal magnitude and keeps
its state, and where its products do not overflow it does so without the guard; a smaller input is read as a zero and
gives zeros. -/
def Obligations.IdentitySection : Prop :=
  (∀ (L : NumLibChoice) (d : Descriptor) (fs : Word) (c : Coeffs), F64.isZero d.gdb = true → d.kind = 3 ∨ d.kind = 4 →
    bqDesign L d fs = some c → c.b0 = Lit.one ∧ F64.eq c.b1 c.a1 = true ∧ c.b2 = c.a2) ∧
  (∀ (b : Biquad) (x : Word), b.co.b0 = Lit.one → F64.eq b.co.b1 b.co.a1 = true → b.co.b2 = b.co.a2 →
    b.z1 = Lit.zero → b.z2 = Lit.zero → F64.isFinite x = true →
    (F64.le Config.ftzMin (F64.abs x) = true →
      bankProcess [b] x = (x, [b]) ∧
      (F64.isFinite (F64.mul b.co.b1 x) = true → F64.isFinite (F64.mul b.co.b2 x) = true →
        bqProcess b x = (x, Lit.zero, Lit.zero))) ∧
    (F64.lt (F64.abs x) Config.ftzMin = true → b.co.finite = true →
      F64.isZero (bqProcess b x).1 = true ∧ F64.isZero (bqProcess b x).2.1 = true ∧
      F64.isZero (bqProcess b x).2.2 = true))

/-- R231: without DC bias the saturator is odd: the envelope of the negated sample is the same, and the output is the
negative, a zero's sign and a NaN apart. -/
def Obligations.SaturatorOdd : Prop :=
  ∀ (P : Params) (t : Tuning) (env x : Word), F64.isZero t.dcBias = true → F64.isFinite x = true →
    (satStep P t env (F64.neg x)).2 = (satStep P t env x).2 ∧
    (F64.isNaN (satStep P t env x).1 = false →
      F64.eq (satStep P t env (F64.neg x)).1 (F64.neg (satStep P t env x).1) = true)

/-- R225, R226, R227: a threshold that is not above zero, or that the envelope does not pass, leaves its shaping off; with
both off the coefficient is the base coefficient of R225, of the envelope floored at 0.01. -/
def Obligations.SaturatorShapingOff : Prop :=
  ∀ (L : NumLibChoice) (t : Tuning) (e k : Word),
    (F64.le t.lowThresh Lit.zero = true ∨ F64.le t.lowThresh e = true → shapeLow L t e k = k) ∧
    (F64.le t.kneeThresh Lit.zero = true ∨ F64.le e t.kneeThresh = true → shapeKnee t e k = k) ∧
    (∀ env, e = F64.max Config.envFloor env →
      F64.le t.lowThresh Lit.zero = true ∨ F64.le t.lowThresh e = true →
      F64.le t.kneeThresh Lit.zero = true ∨ F64.le e t.kneeThresh = true →
      satCoeff L t env = F64.mul t.satA3 (NumLibChoice.pow L e t.satPower))

/-- R233: up to 1.5 in magnitude a value passes the limiter unchanged, a NaN passes unchanged, every other output is at
most 2.0 in magnitude, and an infinity gives ±2.0, whatever the library. -/
def Obligations.LimiterBounds : Prop :=
  (∀ (L : NumLibChoice) (h : Word), F64.le (F64.abs h) Config.hlimT = true → hlim L h = h) ∧
  (∀ (L : NumLibChoice) (h : Word), F64.isNaN h = true → hlim L h = h) ∧
  (∀ (L : NumLibChoice) (h : Word), F64.isNaN h = false → F64.le (F64.abs (hlim L h)) Lit.two = true) ∧
  (∀ L : NumLibChoice, hlim L 0x7FF0000000000000#64 = 0x4000000000000000#64 ∧
    hlim L 0xFFF0000000000000#64 = 0xC000000000000000#64)

/-- R289(1), (5), R284, R287: every solver on the port maps zero to zero, a finite magnetization lies within ±Ms, and with
it a finite output is the magnetization itself up to 90 % of the extended ceiling and never
above that ceiling, where Ms, the rate and `A` are finite and positive, as recomputation ensures. -/
def Obligations.SolverProperties : Prop :=
  ∀ (c : SolverChoice) (L : NumLibChoice) (P : JaParams) (ms fs hp mp h : Word),
    finitePositive ms = true → finitePositive fs = true → finitePositive P.a = true →
    let r := jaSolve c L P ms fs hp mp h
    (F64.isFinite r.mn = true → F64.le (F64.abs r.mn) ms = true) ∧
    (F64.isFinite r.mn = true → F64.isFinite r.out = true →
      (F64.le (F64.abs r.mn) (softStart ms) = true → r.out = r.mn) ∧
      F64.le (F64.abs r.out) (softTop ms) = true) ∧
    (F64.isZero hp = true → F64.isZero mp = true → F64.isZero h = true →
      F64.isZero r.hn = true ∧ F64.isZero r.mn = true ∧ F64.isZero r.out = true)

/-- R288, R290: the block stores a finite field and magnetization whatever the port returns: the port's own when both are
finite, else +0.0 for both with the output +0.0; nothing else of the state changes. With a finite state a finite output
goes on to step 4 as it is, and step 4 replaces every other one, an infinity or a NaN, by the dry value. That this is done
by handing it on as a NaN, so that the limiter of R300 does not act on an infinity first, is the model's choice
(notes/assumptions/20.md, DESIGN CHOICE). -/
def Obligations.HysteresisGuard : Prop :=
  (∀ (s : State) (v : Word),
    let r := jaSolve s.par.solver s.par.numlib (s.par.ja s.formula) (F64.mul (s.par.ja s.formula).ms0 s.tuning.msScale)
      s.fs s.hystH s.hystM v
    hystStep s v = hystAccept r s) ∧
  (∀ (s : State) (r : JaResult),
    (F64.isFinite r.hn = true → F64.isFinite r.mn = true →
      (hystAccept r s).2 = { s with hystH := r.hn, hystM := r.mn } ∧
      (F64.isFinite r.out = true → (hystAccept r s).1 = r.out) ∧
      (F64.isFinite r.out = false → ∀ v, hystScale (hystAccept r s).2 (hystAccept r s).1 v = v)) ∧
    (F64.isFinite r.hn = false ∨ F64.isFinite r.mn = false →
      hystAccept r s = (Lit.zero, { s with hystH := Lit.zero, hystM := Lit.zero })))

/-- R271: from the reset state of the delay line, with no fractional delay and an integer delay of `N` samples, a unit
impulse comes out as exactly 1.0 at index `N` and exactly 0.0 at every other index below 16. -/
def Obligations.DelayLineImpulse : Prop :=
  ∀ s : State, s.mem = [] → s.azWidx = 0 → F64.isZero s.azFrac = true →
    ∀ n < 16, (azOutputs s (Lit.one :: List.replicate 15 Lit.zero))[n]? =
      some (if n = s.azInt.val then Lit.one else Lit.zero)

/-- R261, R43: the fraction of the azimuth delay lies in [0, 1), its integer part is below 16, and both are parts of the
delay. -/
def Obligations.AzimuthDesignRange : Prop :=
  ∀ (p : Profile) (fs : Word) (z : AzimuthSet), azDesign p fs = some z →
    F64.le Lit.zero z.frac = true ∧ F64.lt z.frac Lit.one = true ∧
    z.delay = F64.div (F64.mul (Config.azMicroseconds p) fs) Lit.million ∧
    F64.value z.delay = F64.value z.frac + z.int.val * 2 ^ 1074 ∧
    z.coeff = F64.div (F64.sub Lit.one z.frac) (F64.add Lit.one z.frac)

/-- R12: the one rounding of the arithmetic is to nearest, ties to even, for an exact value of `(n + k/m) / 2^j` units:
of all finite patterns `q` none is nearer than the result, and of two that are as near the result is the even one. A value
from half a last place above the largest finite number on becomes infinity, and no other does. With `k` not 0 something
is left over, as in a division and a square root, which keep two bits below a unit. -/
def Obligations.RoundsToNearestEven : Prop :=
  ∀ n j m k : Nat, Nat.log2 n < 65536 → k < m → (k ≠ 0 → 0 < j) →
    let p := F64.roundMag n j (decide (k ≠ 0))
    (p = F64.infPat ↔ (2 ^ 54 - 1) * 2 ^ (2044 + j) ≤ n) ∧
    (p < F64.infPat → ∀ q < F64.infPat, q ≠ p →
      let x : Int := (n * m + k : Nat)
      let r : Int := (F64.mag (BitVec.ofNat 64 p) * 2 ^ j * m : Nat)
      let v : Int := (F64.mag (BitVec.ofNat 64 q) * 2 ^ j * m : Nat)
      (r - x).natAbs ≤ (v - x).natAbs ∧ ((r - x).natAbs = (v - x).natAbs → p % 2 = 0))

/-! ### Several instances -/

/-- R98, R420: a step of one instance of a system leaves every other instance as it was. -/
def Obligations.InstancesShareNothing : Prop :=
  ∀ (y z : System) (k : Nat), System.stepAt y k = some z →
    z.length = y.length ∧ (∀ j, j ≠ k → z[j]? = y[j]?) ∧
    ∃ p t, y[k]? = some p ∧ step p.inst = .next t ∧ z[k]? = some { p with inst := t }
end

