-- ==== Sys2Proof/Laws/Float.lean ====
section
/-! SUPPORT. The parts of a binary64 word: what packing a sign and a pattern gives back, the integer logarithm, and the
guards that read them. -/

namespace Sys2Proof.Machine

/-! ### Sign and pattern -/

theorem F64.pat_lt (w : Word) : F64.pat w < 2 ^ 63 := Nat.mod_lt _ (by decide)

/-- A word is its sign and its pattern. -/
theorem F64.toNat_eq (w : Word) : w.toNat = (if F64.isNeg w then 2 ^ 63 else 0) + F64.pat w := by
  have h := w.isLt
  unfold F64.isNeg F64.pat
  by_cases hn : 2 ^ 63 ≤ w.toNat
  · simp only [hn, decide_true, if_true]
    omega
  · simp only [hn, decide_false, Bool.false_eq_true, if_false]
    omega

theorem F64.toNat_pack (b : Bool) {p : Nat} (hp : p < 2 ^ 63) :
    (F64.pack b p).toNat = (if b then 2 ^ 63 else 0) + p := by
  unfold F64.pack
  rw [BitVec.toNat_ofNat]
  cases b
  · simp only [Bool.false_eq_true, if_false]
    omega
  · simp only [if_true]
    omega

@[simp] theorem F64.pat_pack (b : Bool) {p : Nat} (hp : p < 2 ^ 63) : F64.pat (F64.pack b p) = p := by
  unfold F64.pat
  rw [F64.toNat_pack b hp]
  cases b
  · simp only [Bool.false_eq_true, if_false]
    omega
  · simp only [if_true]
    omega

@[simp] theorem F64.isNeg_pack (b : Bool) {p : Nat} (hp : p < 2 ^ 63) : F64.isNeg (F64.pack b p) = b := by
  unfold F64.isNeg
  rw [F64.toNat_pack b hp]
  cases b
  · simp only [Bool.false_eq_true, if_false, decide_eq_false_iff_not]
    omega
  · simp

/-- Packing a word's own sign and pattern gives the word. -/
@[simp] theorem F64.pack_self (w : Word) : F64.pack (F64.isNeg w) (F64.pat w) = w := by
  apply BitVec.eq_of_toNat_eq
  rw [F64.toNat_pack _ (F64.pat_lt w), ← F64.toNat_eq]

@[simp] theorem F64.pat_neg (w : Word) : F64.pat (F64.neg w) = F64.pat w := F64.pat_pack _ (F64.pat_lt w)
@[simp] theorem F64.pat_abs (w : Word) : F64.pat (F64.abs w) = F64.pat w := F64.pat_pack _ (F64.pat_lt w)
@[simp] theorem F64.isNeg_neg (w : Word) : F64.isNeg (F64.neg w) = !F64.isNeg w := F64.isNeg_pack _ (F64.pat_lt w)
@[simp] theorem F64.isNeg_abs (w : Word) : F64.isNeg (F64.abs w) = false := F64.isNeg_pack _ (F64.pat_lt w)
@[simp] theorem F64.mag_neg (w : Word) : F64.mag (F64.neg w) = F64.mag w := by simp [F64.mag]
@[simp] theorem F64.mag_abs (w : Word) : F64.mag (F64.abs w) = F64.mag w := by simp [F64.mag]
@[simp] theorem F64.isFinite_neg (w : Word) : F64.isFinite (F64.neg w) = F64.isFinite w := by simp [F64.isFinite]
@[simp] theorem F64.isFinite_abs (w : Word) : F64.isFinite (F64.abs w) = F64.isFinite w := by simp [F64.isFinite]
@[simp] theorem F64.isNaN_neg (w : Word) : F64.isNaN (F64.neg w) = F64.isNaN w := by simp [F64.isNaN]
@[simp] theorem F64.isZero_neg (w : Word) : F64.isZero (F64.neg w) = F64.isZero w := by simp [F64.isZero]

/-- Flipping the sign twice. -/
@[simp] theorem F64.neg_neg (w : Word) : F64.neg (F64.neg w) = w := by
  unfold F64.neg
  rw [F64.isNeg_pack _ (F64.pat_lt w), F64.pat_pack _ (F64.pat_lt w), Bool.not_not, F64.pack_self]

/-- The value of the negative. -/
@[simp] theorem F64.value_neg (w : Word) : F64.value (F64.neg w) = -F64.value w := by
  unfold F64.value
  rw [F64.isNeg_neg, F64.mag_neg]
  cases F64.isNeg w <;> simp

/-- The rounded pattern is at most infinity's, so it packs. -/
theorem F64.roundMag_le (n j : Nat) (st : Bool) : F64.roundMag n j st ≤ F64.infPat := by
  unfold F64.roundMag
  exact Nat.min_le_left _ _

theorem F64.roundMag_lt (n j : Nat) (st : Bool) : F64.roundMag n j st < 2 ^ 63 :=
  Nat.lt_of_le_of_lt (F64.roundMag_le n j st) (by decide)

/-! ### The integer logarithm -/

/-- The floor of the base-2 logarithm, for every nonzero number in range. -/
theorem F64.ilog2_spec (k n : Nat) (hn : n ≠ 0) (h : n < 2 ^ 2 ^ k) :
    2 ^ F64.ilog2 k n ≤ n ∧ n < 2 ^ (F64.ilog2 k n + 1) := by
  induction k generalizing n with
  | zero =>
    have h2 : n < 2 := by simpa using h
    have h1 : n = 1 := by omega
    subst h1
    decide
  | succ k ih =>
    unfold F64.ilog2
    rw [Nat.shiftRight_eq_div_pow]
    by_cases hz : n / 2 ^ 2 ^ k = 0
    · rw [if_pos hz]
      exact ih n hn ((Nat.div_eq_zero_iff_lt (Nat.two_pow_pos _)).mp hz)
    · rw [if_neg hz]
      have hq : n / 2 ^ 2 ^ k < 2 ^ 2 ^ k := by
        rw [Nat.div_lt_iff_lt_mul (Nat.two_pow_pos _), ← Nat.pow_add]
        rwa [show 2 ^ k + 2 ^ k = 2 ^ (k + 1) by rw [Nat.pow_succ]; omega]
      obtain ⟨h1, h2⟩ := ih _ hz hq
      constructor
      · rw [Nat.pow_add, Nat.mul_comm]
        exact (Nat.le_div_iff_mul_le (Nat.two_pow_pos _)).mp h1
      · rw [Nat.add_assoc, Nat.pow_add, Nat.mul_comm]
        exact (Nat.div_lt_iff_lt_mul (Nat.two_pow_pos _)).mp h2

/-- The logarithm the rounding uses is `Nat.log2`. -/
theorem F64.ilog2_eq_log2 (n : Nat) (h : n < 2 ^ 2 ^ 16) : F64.ilog2 16 n = Nat.log2 n := by
  by_cases hn : n = 0
  · subst hn
    decide
  · obtain ⟨h1, h2⟩ := F64.ilog2_spec 16 n hn h
    exact ((Nat.log2_eq_iff hn).mpr ⟨h1, h2⟩).symm

/-! ### The one rounding -/

/-- How far the rounding shifts: to 53 bits, and never below a unit. -/
def F64.roundShift (n j : Nat) : Nat := Max.max j (F64.ilog2 16 n - 52)

/-- The quotient by `2^d`, rounded to nearest, ties to even. -/
def F64.roundAt (n d : Nat) : Nat :=
  if decide (2 ^ d < 2 * (n % 2 ^ d)) || (decide (2 * (n % 2 ^ d) = 2 ^ d) && n / 2 ^ d % 2 == 1) then n / 2 ^ d + 1
  else n / 2 ^ d

theorem F64.roundMag_eq (n j : Nat) : F64.roundMag n j false =
    Min.min F64.infPat ((F64.roundShift n j - j) * 2 ^ 52 + F64.roundAt n (F64.roundShift n j)) := by
  unfold F64.roundMag F64.roundAt F64.roundShift
  simp only [Nat.shiftRight_eq_div_pow, Bool.false_or]

/-- Rounding at one place is monotone. -/
theorem F64.roundAt_mono {n m : Nat} (d : Nat) (h : n ≤ m) : F64.roundAt n d ≤ F64.roundAt m d := by
  have hp : 0 < 2 ^ d := Nat.two_pow_pos d
  have hq : n / 2 ^ d ≤ m / 2 ^ d := Nat.div_le_div_right h
  unfold F64.roundAt
  by_cases he : n / 2 ^ d = m / 2 ^ d
  · have hn := Nat.div_add_mod n (2 ^ d)
    have hm := Nat.div_add_mod m (2 ^ d)
    rw [he] at hn
    have hr : n % 2 ^ d ≤ m % 2 ^ d := by omega
    rw [he]
    by_cases hu : (decide (2 ^ d < 2 * (n % 2 ^ d)) ||
        (decide (2 * (n % 2 ^ d) = 2 ^ d) && m / 2 ^ d % 2 == 1)) = true
    · have hv : (decide (2 ^ d < 2 * (m % 2 ^ d)) ||
          (decide (2 * (m % 2 ^ d) = 2 ^ d) && m / 2 ^ d % 2 == 1)) = true := by
        simp only [Bool.or_eq_true, Bool.and_eq_true, decide_eq_true_eq] at hu ⊢
        rcases hu with hu | ⟨hu, ho⟩
        · exact .inl (by omega)
        · by_cases hlt : 2 ^ d < 2 * (m % 2 ^ d)
          · exact .inl hlt
          · exact .inr ⟨by omega, ho⟩
      rw [if_pos hu, if_pos hv]
    · rw [if_neg hu]
      split <;> omega
  · split <;> split <;> omega

/-- At the shift of `n` the quotient has at most 53 bits. -/
theorem F64.div_roundShift_lt {n : Nat} (j : Nat) (hn : n < 2 ^ 2 ^ 16) :
    n / 2 ^ F64.roundShift n j < 2 ^ 53 := by
  rw [Nat.div_lt_iff_lt_mul (Nat.two_pow_pos _), ← Nat.pow_add]
  by_cases hz : n = 0
  · subst hz
    exact Nat.two_pow_pos _
  · refine Nat.lt_of_lt_of_le (F64.ilog2_spec 16 n hz hn).2 (Nat.pow_le_pow_right (by decide) ?_)
    unfold F64.roundShift
    omega

/-- Above the unit shift the quotient has 53 bits. -/
theorem F64.le_div_roundShift {n j : Nat} (hn : n < 2 ^ 2 ^ 16) (hj : j < F64.roundShift n j) :
    2 ^ 52 ≤ n / 2 ^ F64.roundShift n j := by
  rw [Nat.le_div_iff_mul_le (Nat.two_pow_pos _), ← Nat.pow_add]
  by_cases hz : n = 0
  · subst hz
    have h0 : F64.ilog2 16 0 = 0 := by decide
    unfold F64.roundShift at hj
    omega
  · refine Nat.le_trans (Nat.pow_le_pow_right (by decide) ?_) (F64.ilog2_spec 16 n hz hn).1
    unfold F64.roundShift at hj ⊢
    omega

theorem F64.roundAt_le (n d : Nat) : F64.roundAt n d ≤ n / 2 ^ d + 1 := by
  unfold F64.roundAt
  split <;> omega

theorem F64.le_roundAt (n d : Nat) : n / 2 ^ d ≤ F64.roundAt n d := by
  unfold F64.roundAt
  split <;> omega

theorem F64.roundShift_mono {n m : Nat} (j : Nat) (hm : m < 2 ^ 2 ^ 16) (h : n ≤ m) :
    F64.roundShift n j ≤ F64.roundShift m j := by
  by_cases hz : n = 0
  · subst hz
    have h0 : F64.ilog2 16 0 = 0 := by decide
    unfold F64.roundShift
    omega
  · have hmz : m ≠ 0 := by omega
    have h1 := (F64.ilog2_spec 16 n hz (Nat.lt_of_le_of_lt h hm)).1
    have h2 := (F64.ilog2_spec 16 m hmz hm).2
    have h3 : F64.ilog2 16 n < F64.ilog2 16 m + 1 :=
      (Nat.pow_lt_pow_iff_right (a := 2) (by decide)).mp (Nat.lt_of_le_of_lt h1 (Nat.lt_of_le_of_lt h h2))
    unfold F64.roundShift
    omega

/-- The rounding is monotone. -/
theorem F64.roundMag_mono {n m : Nat} (j : Nat) (hm : m < 2 ^ 2 ^ 16) (h : n ≤ m) :
    F64.roundMag n j false ≤ F64.roundMag m j false := by
  rw [F64.roundMag_eq, F64.roundMag_eq]
  have hd := F64.roundShift_mono j hm h
  have hjn : j ≤ F64.roundShift n j := Nat.le_max_left _ _
  suffices hs : (F64.roundShift n j - j) * 2 ^ 52 + F64.roundAt n (F64.roundShift n j) ≤
      (F64.roundShift m j - j) * 2 ^ 52 + F64.roundAt m (F64.roundShift m j) from
    min_le_min le_rfl hs
  by_cases he : F64.roundShift n j = F64.roundShift m j
  · have hr := F64.roundAt_mono (F64.roundShift m j) h
    rw [he]
    omega
  · have h1 := F64.roundAt_le n (F64.roundShift n j)
    have h2 := F64.div_roundShift_lt j (Nat.lt_of_le_of_lt h hm)
    have h3 := F64.le_roundAt m (F64.roundShift m j)
    have h4 := F64.le_div_roundShift hm (show j < F64.roundShift m j by omega)
    have h5 : (F64.roundShift n j - j + 1) * 2 ^ 52 ≤ (F64.roundShift m j - j) * 2 ^ 52 :=
      Nat.mul_le_mul_right _ (by omega)
    rw [Nat.add_mul] at h5
    omega

/-- The magnitude of a pattern, in units. -/
theorem F64.mag_of_pat (p : Nat) (b : Bool) (hp : p < 2 ^ 63) : F64.mag (F64.pack b p) =
    if p / 2 ^ 52 = 0 then p else (p % 2 ^ 52 + 2 ^ 52) * 2 ^ (p / 2 ^ 52 - 1) := by
  unfold F64.mag
  rw [F64.pat_pack b hp, Nat.shiftLeft_eq]

/-- The shift of a number whose bits are known. -/
theorem F64.roundShift_of_bits {n k : Nat} (j : Nat) (hn : n < 2 ^ 2 ^ 16) (h1 : 2 ^ k ≤ n) (h2 : n < 2 ^ (k + 1)) :
    F64.roundShift n j = Max.max j (k - 52) := by
  have hz : n ≠ 0 := by
    have := Nat.two_pow_pos k
    omega
  obtain ⟨g1, g2⟩ := F64.ilog2_spec 16 n hz hn
  have a : k < F64.ilog2 16 n + 1 := (Nat.pow_lt_pow_iff_right (a := 2) (by decide)).mp (Nat.lt_of_le_of_lt h1 g2)
  have b : F64.ilog2 16 n < k + 1 := (Nat.pow_lt_pow_iff_right (a := 2) (by decide)).mp (Nat.lt_of_le_of_lt g1 h2)
  unfold F64.roundShift
  rw [show F64.ilog2 16 n = k by omega]

/-- A multiple of the place is kept. -/
theorem F64.roundAt_mul (q d : Nat) : F64.roundAt (q * 2 ^ d) d = q := by
  have hp := Nat.two_pow_pos d
  unfold F64.roundAt
  rw [Nat.mul_mod_left, Nat.mul_div_cancel _ hp, if_neg]
  simp only [Bool.or_eq_true, Bool.and_eq_true, decide_eq_true_eq]
  omega

/-- A number that a pattern represents exactly rounds to that pattern. -/
theorem F64.roundMag_exact {p : Nat} (j : Nat) (b : Bool) (hp : p < F64.infPat)
    (hn : F64.mag (F64.pack b p) * 2 ^ j < 2 ^ 2 ^ 16) :
    F64.roundMag (F64.mag (F64.pack b p) * 2 ^ j) j false = p := by
  have h63 : p < 2 ^ 63 := Nat.lt_trans hp (by decide)
  rw [F64.mag_of_pat p b h63] at hn ⊢
  rw [F64.roundMag_eq]
  by_cases hsmall : p < 2 ^ 53
  · have hm : (if p / 2 ^ 52 = 0 then p else (p % 2 ^ 52 + 2 ^ 52) * 2 ^ (p / 2 ^ 52 - 1)) = p := by
      split
      · rfl
      · rw [show p / 2 ^ 52 - 1 = 0 by omega, Nat.pow_zero]
        omega
    rw [hm] at hn ⊢
    have hd : F64.roundShift (p * 2 ^ j) j = j := by
      by_cases hz : p = 0
      · subst hz
        rw [Nat.zero_mul]
        have h0 : F64.ilog2 16 0 = 0 := by decide
        unfold F64.roundShift
        omega
      · have hl := Nat.log2_lt hz |>.mpr hsmall
        have hz' : p * 2 ^ j ≠ 0 := Nat.mul_ne_zero hz (Nat.ne_of_gt (Nat.two_pow_pos j))
        obtain ⟨g1, -⟩ := F64.ilog2_spec 16 _ hz' hn
        have hlt : p * 2 ^ j < 2 ^ (53 + j) := by
          rw [Nat.pow_add]
          exact Nat.mul_lt_mul_of_pos_right hsmall (Nat.two_pow_pos j)
        have := (Nat.pow_lt_pow_iff_right (a := 2) (by decide)).mp (Nat.lt_of_le_of_lt g1 hlt)
        unfold F64.roundShift
        omega
    rw [hd, F64.roundAt_mul, Nat.sub_self, Nat.zero_mul, Nat.zero_add]
    exact min_eq_right (Nat.le_of_lt hp)
  · have he : p / 2 ^ 52 ≠ 0 := by omega
    rw [if_neg he, Nat.mul_assoc, ← Nat.pow_add] at hn ⊢
    have hd : F64.roundShift ((p % 2 ^ 52 + 2 ^ 52) * 2 ^ (p / 2 ^ 52 - 1 + j)) j = p / 2 ^ 52 - 1 + j := by
      rw [F64.roundShift_of_bits (k := 52 + (p / 2 ^ 52 - 1 + j)) j hn]
      · have : j ≤ 52 + (p / 2 ^ 52 - 1 + j) - 52 := by omega
        omega
      · rw [Nat.pow_add]
        exact Nat.mul_le_mul_right _ (by omega)
      · rw [show 52 + (p / 2 ^ 52 - 1 + j) + 1 = 53 + (p / 2 ^ 52 - 1 + j) by omega,
          Nat.pow_add 2 53]
        exact Nat.mul_lt_mul_of_pos_right (by omega) (Nat.two_pow_pos _)
    rw [hd, F64.roundAt_mul]
    have hv : (p / 2 ^ 52 - 1 + j - j) * 2 ^ 52 + (p % 2 ^ 52 + 2 ^ 52) = p := by omega
    rw [hv]
    exact min_eq_right (Nat.le_of_lt hp)

end Sys2Proof.Machine
end

