-- ==== Sys2Proof/Laws/State.lean ====
section
/-! SUPPORT. One lemma per field of the state and named update of it: what the field holds afterwards. -/

namespace Sys2Proof.Machine

/-! ### The end of a command (R340) -/

@[simp] theorem complete_cmd (s : State) : (complete s).cmd = s.cmd := rfl
@[simp] theorem complete_op0 (s : State) : (complete s).op0 = s.op0 := rfl
@[simp] theorem complete_op1 (s : State) : (complete s).op1 = s.op1 := rfl
@[simp] theorem complete_res (s : State) : (complete s).res = s.res := rfl
@[simp] theorem complete_blockState (s : State) : (complete s).blockState = s.blockState := rfl
@[simp] theorem complete_fault (s : State) : (complete s).fault = s.fault := rfl
@[simp] theorem complete_ack (s : State) : (complete s).ack = .ok := rfl
@[simp] theorem complete_fs (s : State) : (complete s).fs = s.fs := rfl
@[simp] theorem complete_bias (s : State) : (complete s).bias = s.bias := rfl
@[simp] theorem complete_ingain (s : State) : (complete s).ingain = s.ingain := rfl
@[simp] theorem complete_profile (s : State) : (complete s).profile = s.profile := rfl
@[simp] theorem complete_formula (s : State) : (complete s).formula = s.formula := rfl
@[simp] theorem complete_tuning (s : State) : (complete s).tuning = s.tuning := rfl
@[simp] theorem complete_shield (s : State) : (complete s).shield = s.shield := rfl
@[simp] theorem complete_eqa (s : State) : (complete s).eqa = s.eqa := rfl
@[simp] theorem complete_eqb (s : State) : (complete s).eqb = s.eqb := rfl
@[simp] theorem complete_dcb (s : State) : (complete s).dcb = s.dcb := rfl
@[simp] theorem complete_shieldNorm (s : State) : (complete s).shieldNorm = s.shieldNorm := rfl
@[simp] theorem complete_disp (s : State) : (complete s).disp = s.disp := rfl
@[simp] theorem complete_satEnv (s : State) : (complete s).satEnv = s.satEnv := rfl
@[simp] theorem complete_blendEnv (s : State) : (complete s).blendEnv = s.blendEnv := rfl
@[simp] theorem complete_blendAtt (s : State) : (complete s).blendAtt = s.blendAtt := rfl
@[simp] theorem complete_blendRel (s : State) : (complete s).blendRel = s.blendRel := rfl
@[simp] theorem complete_fadeGain (s : State) : (complete s).fadeGain = s.fadeGain := rfl
@[simp] theorem complete_fadeInc (s : State) : (complete s).fadeInc = s.fadeInc := rfl
@[simp] theorem complete_hystH (s : State) : (complete s).hystH = s.hystH := rfl
@[simp] theorem complete_hystM (s : State) : (complete s).hystM = s.hystM := rfl
@[simp] theorem complete_azDelay (s : State) : (complete s).azDelay = s.azDelay := rfl
@[simp] theorem complete_azInt (s : State) : (complete s).azInt = s.azInt := rfl
@[simp] theorem complete_azFrac (s : State) : (complete s).azFrac = s.azFrac := rfl
@[simp] theorem complete_azCoeff (s : State) : (complete s).azCoeff = s.azCoeff := rfl
@[simp] theorem complete_azZ (s : State) : (complete s).azZ = s.azZ := rfl
@[simp] theorem complete_azWidx (s : State) : (complete s).azWidx = s.azWidx := rfl
@[simp] theorem complete_mem (s : State) : (complete s).mem = s.mem := rfl
@[simp] theorem complete_par (s : State) : (complete s).par = s.par := rfl
@[simp] theorem complete_pending (s : State) : (complete s).pending = s.pending := rfl
@[simp] theorem complete_rdata (s : State) : (complete s).rdata = s.rdata := rfl

/-! ### A refusal (R404) -/

@[simp] theorem refuse_cmd (s : State) : (refuse s).cmd = s.cmd := rfl
@[simp] theorem refuse_op0 (s : State) : (refuse s).op0 = s.op0 := rfl
@[simp] theorem refuse_op1 (s : State) : (refuse s).op1 = s.op1 := rfl
@[simp] theorem refuse_res (s : State) : (refuse s).res = s.res := rfl
@[simp] theorem refuse_blockState (s : State) : (refuse s).blockState = s.blockState := rfl
@[simp] theorem refuse_fault (s : State) : (refuse s).fault = s.fault := rfl
@[simp] theorem refuse_ack (s : State) : (refuse s).ack = .refused := rfl
@[simp] theorem refuse_fs (s : State) : (refuse s).fs = s.fs := rfl
@[simp] theorem refuse_bias (s : State) : (refuse s).bias = s.bias := rfl
@[simp] theorem refuse_ingain (s : State) : (refuse s).ingain = s.ingain := rfl
@[simp] theorem refuse_profile (s : State) : (refuse s).profile = s.profile := rfl
@[simp] theorem refuse_formula (s : State) : (refuse s).formula = s.formula := rfl
@[simp] theorem refuse_tuning (s : State) : (refuse s).tuning = s.tuning := rfl
@[simp] theorem refuse_shield (s : State) : (refuse s).shield = s.shield := rfl
@[simp] theorem refuse_eqa (s : State) : (refuse s).eqa = s.eqa := rfl
@[simp] theorem refuse_eqb (s : State) : (refuse s).eqb = s.eqb := rfl
@[simp] theorem refuse_dcb (s : State) : (refuse s).dcb = s.dcb := rfl
@[simp] theorem refuse_shieldNorm (s : State) : (refuse s).shieldNorm = s.shieldNorm := rfl
@[simp] theorem refuse_disp (s : State) : (refuse s).disp = s.disp := rfl
@[simp] theorem refuse_satEnv (s : State) : (refuse s).satEnv = s.satEnv := rfl
@[simp] theorem refuse_blendEnv (s : State) : (refuse s).blendEnv = s.blendEnv := rfl
@[simp] theorem refuse_blendAtt (s : State) : (refuse s).blendAtt = s.blendAtt := rfl
@[simp] theorem refuse_blendRel (s : State) : (refuse s).blendRel = s.blendRel := rfl
@[simp] theorem refuse_fadeGain (s : State) : (refuse s).fadeGain = s.fadeGain := rfl
@[simp] theorem refuse_fadeInc (s : State) : (refuse s).fadeInc = s.fadeInc := rfl
@[simp] theorem refuse_hystH (s : State) : (refuse s).hystH = s.hystH := rfl
@[simp] theorem refuse_hystM (s : State) : (refuse s).hystM = s.hystM := rfl
@[simp] theorem refuse_azDelay (s : State) : (refuse s).azDelay = s.azDelay := rfl
@[simp] theorem refuse_azInt (s : State) : (refuse s).azInt = s.azInt := rfl
@[simp] theorem refuse_azFrac (s : State) : (refuse s).azFrac = s.azFrac := rfl
@[simp] theorem refuse_azCoeff (s : State) : (refuse s).azCoeff = s.azCoeff := rfl
@[simp] theorem refuse_azZ (s : State) : (refuse s).azZ = s.azZ := rfl
@[simp] theorem refuse_azWidx (s : State) : (refuse s).azWidx = s.azWidx := rfl
@[simp] theorem refuse_mem (s : State) : (refuse s).mem = s.mem := rfl
@[simp] theorem refuse_par (s : State) : (refuse s).par = s.par := rfl
@[simp] theorem refuse_pending (s : State) : (refuse s).pending = s.pending := rfl
@[simp] theorem refuse_rdata (s : State) : (refuse s).rdata = s.rdata := rfl

/-! ### Taking a fault (R402) -/

@[simp] theorem raiseFault_cmd (code : FaultCode) (s : State) : (raiseFault code s).cmd = s.cmd := rfl
@[simp] theorem raiseFault_op0 (code : FaultCode) (s : State) : (raiseFault code s).op0 = s.op0 := rfl
@[simp] theorem raiseFault_op1 (code : FaultCode) (s : State) : (raiseFault code s).op1 = s.op1 := rfl
@[simp] theorem raiseFault_res (code : FaultCode) (s : State) : (raiseFault code s).res = s.res := rfl
@[simp] theorem raiseFault_blockState (code : FaultCode) (s : State) : (raiseFault code s).blockState = s.blockState := rfl
@[simp] theorem raiseFault_fault (code : FaultCode) (s : State) : (raiseFault code s).fault = some (s.fault.getD code) := rfl
@[simp] theorem raiseFault_ack (code : FaultCode) (s : State) : (raiseFault code s).ack = .fault := rfl
@[simp] theorem raiseFault_fs (code : FaultCode) (s : State) : (raiseFault code s).fs = s.fs := rfl
@[simp] theorem raiseFault_bias (code : FaultCode) (s : State) : (raiseFault code s).bias = s.bias := rfl
@[simp] theorem raiseFault_ingain (code : FaultCode) (s : State) : (raiseFault code s).ingain = s.ingain := rfl
@[simp] theorem raiseFault_profile (code : FaultCode) (s : State) : (raiseFault code s).profile = s.profile := rfl
@[simp] theorem raiseFault_formula (code : FaultCode) (s : State) : (raiseFault code s).formula = s.formula := rfl
@[simp] theorem raiseFault_tuning (code : FaultCode) (s : State) : (raiseFault code s).tuning = s.tuning := rfl
@[simp] theorem raiseFault_shield (code : FaultCode) (s : State) : (raiseFault code s).shield = s.shield := rfl
@[simp] theorem raiseFault_eqa (code : FaultCode) (s : State) : (raiseFault code s).eqa = s.eqa := rfl
@[simp] theorem raiseFault_eqb (code : FaultCode) (s : State) : (raiseFault code s).eqb = s.eqb := rfl
@[simp] theorem raiseFault_dcb (code : FaultCode) (s : State) : (raiseFault code s).dcb = s.dcb := rfl
@[simp] theorem raiseFault_shieldNorm (code : FaultCode) (s : State) : (raiseFault code s).shieldNorm = s.shieldNorm := rfl
@[simp] theorem raiseFault_disp (code : FaultCode) (s : State) : (raiseFault code s).disp = s.disp := rfl
@[simp] theorem raiseFault_satEnv (code : FaultCode) (s : State) : (raiseFault code s).satEnv = s.satEnv := rfl
@[simp] theorem raiseFault_blendEnv (code : FaultCode) (s : State) : (raiseFault code s).blendEnv = s.blendEnv := rfl
@[simp] theorem raiseFault_blendAtt (code : FaultCode) (s : State) : (raiseFault code s).blendAtt = s.blendAtt := rfl
@[simp] theorem raiseFault_blendRel (code : FaultCode) (s : State) : (raiseFault code s).blendRel = s.blendRel := rfl
@[simp] theorem raiseFault_fadeGain (code : FaultCode) (s : State) : (raiseFault code s).fadeGain = s.fadeGain := rfl
@[simp] theorem raiseFault_fadeInc (code : FaultCode) (s : State) : (raiseFault code s).fadeInc = s.fadeInc := rfl
@[simp] theorem raiseFault_hystH (code : FaultCode) (s : State) : (raiseFault code s).hystH = s.hystH := rfl
@[simp] theorem raiseFault_hystM (code : FaultCode) (s : State) : (raiseFault code s).hystM = s.hystM := rfl
@[simp] theorem raiseFault_azDelay (code : FaultCode) (s : State) : (raiseFault code s).azDelay = s.azDelay := rfl
@[simp] theorem raiseFault_azInt (code : FaultCode) (s : State) : (raiseFault code s).azInt = s.azInt := rfl
@[simp] theorem raiseFault_azFrac (code : FaultCode) (s : State) : (raiseFault code s).azFrac = s.azFrac := rfl
@[simp] theorem raiseFault_azCoeff (code : FaultCode) (s : State) : (raiseFault code s).azCoeff = s.azCoeff := rfl
@[simp] theorem raiseFault_azZ (code : FaultCode) (s : State) : (raiseFault code s).azZ = s.azZ := rfl
@[simp] theorem raiseFault_azWidx (code : FaultCode) (s : State) : (raiseFault code s).azWidx = s.azWidx := rfl
@[simp] theorem raiseFault_mem (code : FaultCode) (s : State) : (raiseFault code s).mem = s.mem := rfl
@[simp] theorem raiseFault_par (code : FaultCode) (s : State) : (raiseFault code s).par = s.par := rfl
@[simp] theorem raiseFault_pending (code : FaultCode) (s : State) : (raiseFault code s).pending = s.pending := rfl
@[simp] theorem raiseFault_rdata (code : FaultCode) (s : State) : (raiseFault code s).rdata = s.rdata := rfl

/-! ### Committing the rate-dependent sets (R348) -/

@[simp] theorem commitRate_cmd (r : RateSet) (s : State) : (commitRate r s).cmd = s.cmd := rfl
@[simp] theorem commitRate_op0 (r : RateSet) (s : State) : (commitRate r s).op0 = s.op0 := rfl
@[simp] theorem commitRate_op1 (r : RateSet) (s : State) : (commitRate r s).op1 = s.op1 := rfl
@[simp] theorem commitRate_res (r : RateSet) (s : State) : (commitRate r s).res = s.res := rfl
@[simp] theorem commitRate_blockState (r : RateSet) (s : State) : (commitRate r s).blockState = s.blockState := rfl
@[simp] theorem commitRate_fault (r : RateSet) (s : State) : (commitRate r s).fault = s.fault := rfl
@[simp] theorem commitRate_ack (r : RateSet) (s : State) : (commitRate r s).ack = s.ack := rfl
@[simp] theorem commitRate_fs (r : RateSet) (s : State) : (commitRate r s).fs = s.fs := rfl
@[simp] theorem commitRate_bias (r : RateSet) (s : State) : (commitRate r s).bias = s.bias := rfl
@[simp] theorem commitRate_ingain (r : RateSet) (s : State) : (commitRate r s).ingain = s.ingain := rfl
@[simp] theorem commitRate_profile (r : RateSet) (s : State) : (commitRate r s).profile = s.profile := rfl
@[simp] theorem commitRate_formula (r : RateSet) (s : State) : (commitRate r s).formula = s.formula := rfl
@[simp] theorem commitRate_tuning (r : RateSet) (s : State) : (commitRate r s).tuning = s.tuning := rfl
@[simp] theorem commitRate_shield (r : RateSet) (s : State) : (commitRate r s).shield = s.shield := rfl
@[simp] theorem commitRate_eqa (r : RateSet) (s : State) : (commitRate r s).eqa = commitBank r.eqa s.eqa := rfl
@[simp] theorem commitRate_eqb (r : RateSet) (s : State) : (commitRate r s).eqb = commitBank r.eqb s.eqb := rfl
@[simp] theorem commitRate_dcb (r : RateSet) (s : State) : (commitRate r s).dcb = commitBank r.dcb s.dcb := rfl
@[simp] theorem commitRate_shieldNorm (r : RateSet) (s : State) : (commitRate r s).shieldNorm = s.shieldNorm := rfl
@[simp] theorem commitRate_disp (r : RateSet) (s : State) : (commitRate r s).disp = s.disp := rfl
@[simp] theorem commitRate_satEnv (r : RateSet) (s : State) : (commitRate r s).satEnv = s.satEnv := rfl
@[simp] theorem commitRate_blendEnv (r : RateSet) (s : State) : (commitRate r s).blendEnv = s.blendEnv := rfl
@[simp] theorem commitRate_blendAtt (r : RateSet) (s : State) : (commitRate r s).blendAtt = r.blendAtt := rfl
@[simp] theorem commitRate_blendRel (r : RateSet) (s : State) : (commitRate r s).blendRel = r.blendRel := rfl
@[simp] theorem commitRate_fadeGain (r : RateSet) (s : State) : (commitRate r s).fadeGain = s.fadeGain := rfl
@[simp] theorem commitRate_fadeInc (r : RateSet) (s : State) : (commitRate r s).fadeInc = r.fadeInc := rfl
@[simp] theorem commitRate_hystH (r : RateSet) (s : State) : (commitRate r s).hystH = s.hystH := rfl
@[simp] theorem commitRate_hystM (r : RateSet) (s : State) : (commitRate r s).hystM = s.hystM := rfl
@[simp] theorem commitRate_azDelay (r : RateSet) (s : State) : (commitRate r s).azDelay = s.azDelay := rfl
@[simp] theorem commitRate_azInt (r : RateSet) (s : State) : (commitRate r s).azInt = s.azInt := rfl
@[simp] theorem commitRate_azFrac (r : RateSet) (s : State) : (commitRate r s).azFrac = s.azFrac := rfl
@[simp] theorem commitRate_azCoeff (r : RateSet) (s : State) : (commitRate r s).azCoeff = s.azCoeff := rfl
@[simp] theorem commitRate_azZ (r : RateSet) (s : State) : (commitRate r s).azZ = s.azZ := rfl
@[simp] theorem commitRate_azWidx (r : RateSet) (s : State) : (commitRate r s).azWidx = s.azWidx := rfl
@[simp] theorem commitRate_mem (r : RateSet) (s : State) : (commitRate r s).mem = s.mem := rfl
@[simp] theorem commitRate_par (r : RateSet) (s : State) : (commitRate r s).par = s.par := rfl
@[simp] theorem commitRate_pending (r : RateSet) (s : State) : (commitRate r s).pending = s.pending := rfl
@[simp] theorem commitRate_rdata (r : RateSet) (s : State) : (commitRate r s).rdata = s.rdata := rfl

/-! ### Committing the profile-dependent sets (R348) -/

@[simp] theorem commitProfile_cmd (p : ProfileSet) (s : State) : (commitProfile p s).cmd = s.cmd := rfl
@[simp] theorem commitProfile_op0 (p : ProfileSet) (s : State) : (commitProfile p s).op0 = s.op0 := rfl
@[simp] theorem commitProfile_op1 (p : ProfileSet) (s : State) : (commitProfile p s).op1 = s.op1 := rfl
@[simp] theorem commitProfile_res (p : ProfileSet) (s : State) : (commitProfile p s).res = s.res := rfl
@[simp] theorem commitProfile_blockState (p : ProfileSet) (s : State) : (commitProfile p s).blockState = s.blockState := rfl
@[simp] theorem commitProfile_fault (p : ProfileSet) (s : State) : (commitProfile p s).fault = s.fault := rfl
@[simp] theorem commitProfile_ack (p : ProfileSet) (s : State) : (commitProfile p s).ack = s.ack := rfl
@[simp] theorem commitProfile_fs (p : ProfileSet) (s : State) : (commitProfile p s).fs = s.fs := rfl
@[simp] theorem commitProfile_bias (p : ProfileSet) (s : State) : (commitProfile p s).bias = s.bias := rfl
@[simp] theorem commitProfile_ingain (p : ProfileSet) (s : State) : (commitProfile p s).ingain = s.ingain := rfl
@[simp] theorem commitProfile_profile (p : ProfileSet) (s : State) : (commitProfile p s).profile = s.profile := rfl
@[simp] theorem commitProfile_formula (p : ProfileSet) (s : State) : (commitProfile p s).formula = s.formula := rfl
@[simp] theorem commitProfile_tuning (p : ProfileSet) (s : State) : (commitProfile p s).tuning = p.tuning := rfl
@[simp] theorem commitProfile_shield (p : ProfileSet) (s : State) : (commitProfile p s).shield = commitBank p.shield s.shield := rfl
@[simp] theorem commitProfile_eqa (p : ProfileSet) (s : State) : (commitProfile p s).eqa = s.eqa := rfl
@[simp] theorem commitProfile_eqb (p : ProfileSet) (s : State) : (commitProfile p s).eqb = s.eqb := rfl
@[simp] theorem commitProfile_dcb (p : ProfileSet) (s : State) : (commitProfile p s).dcb = s.dcb := rfl
@[simp] theorem commitProfile_shieldNorm (p : ProfileSet) (s : State) : (commitProfile p s).shieldNorm = p.shieldNorm := rfl
@[simp] theorem commitProfile_disp (p : ProfileSet) (s : State) : (commitProfile p s).disp = commitDisp p.disp s.disp := rfl
@[simp] theorem commitProfile_satEnv (p : ProfileSet) (s : State) : (commitProfile p s).satEnv = s.satEnv := rfl
@[simp] theorem commitProfile_blendEnv (p : ProfileSet) (s : State) : (commitProfile p s).blendEnv = s.blendEnv := rfl
@[simp] theorem commitProfile_blendAtt (p : ProfileSet) (s : State) : (commitProfile p s).blendAtt = s.blendAtt := rfl
@[simp] theorem commitProfile_blendRel (p : ProfileSet) (s : State) : (commitProfile p s).blendRel = s.blendRel := rfl
@[simp] theorem commitProfile_fadeGain (p : ProfileSet) (s : State) : (commitProfile p s).fadeGain = s.fadeGain := rfl
@[simp] theorem commitProfile_fadeInc (p : ProfileSet) (s : State) : (commitProfile p s).fadeInc = s.fadeInc := rfl
@[simp] theorem commitProfile_hystH (p : ProfileSet) (s : State) : (commitProfile p s).hystH = s.hystH := rfl
@[simp] theorem commitProfile_hystM (p : ProfileSet) (s : State) : (commitProfile p s).hystM = s.hystM := rfl
@[simp] theorem commitProfile_azDelay (p : ProfileSet) (s : State) : (commitProfile p s).azDelay = p.azimuth.delay := rfl
@[simp] theorem commitProfile_azInt (p : ProfileSet) (s : State) : (commitProfile p s).azInt = p.azimuth.int := rfl
@[simp] theorem commitProfile_azFrac (p : ProfileSet) (s : State) : (commitProfile p s).azFrac = p.azimuth.frac := rfl
@[simp] theorem commitProfile_azCoeff (p : ProfileSet) (s : State) : (commitProfile p s).azCoeff = p.azimuth.coeff := rfl
@[simp] theorem commitProfile_azZ (p : ProfileSet) (s : State) : (commitProfile p s).azZ = s.azZ := rfl
@[simp] theorem commitProfile_azWidx (p : ProfileSet) (s : State) : (commitProfile p s).azWidx = s.azWidx := rfl
@[simp] theorem commitProfile_mem (p : ProfileSet) (s : State) : (commitProfile p s).mem = s.mem := rfl
@[simp] theorem commitProfile_par (p : ProfileSet) (s : State) : (commitProfile p s).par = s.par := rfl
@[simp] theorem commitProfile_pending (p : ProfileSet) (s : State) : (commitProfile p s).pending = s.pending := rfl
@[simp] theorem commitProfile_rdata (p : ProfileSet) (s : State) : (commitProfile p s).rdata = s.rdata := rfl

/-! ### Storing the settings (R347) -/

@[simp] theorem storeSettings_cmd (b g : Word) (p : Profile) (f : Formula) (s : State) : (storeSettings b g p f s).cmd = s.cmd := rfl
@[simp] theorem storeSettings_op0 (b g : Word) (p : Profile) (f : Formula) (s : State) : (storeSettings b g p f s).op0 = s.op0 := rfl
@[simp] theorem storeSettings_op1 (b g : Word) (p : Profile) (f : Formula) (s : State) : (storeSettings b g p f s).op1 = s.op1 := rfl
@[simp] theorem storeSettings_res (b g : Word) (p : Profile) (f : Formula) (s : State) : (storeSettings b g p f s).res = s.res := rfl
@[simp] theorem storeSettings_blockState (b g : Word) (p : Profile) (f : Formula) (s : State) : (storeSettings b g p f s).blockState = s.blockState := rfl
@[simp] theorem storeSettings_fault (b g : Word) (p : Profile) (f : Formula) (s : State) : (storeSettings b g p f s).fault = s.fault := rfl
@[simp] theorem storeSettings_ack (b g : Word) (p : Profile) (f : Formula) (s : State) : (storeSettings b g p f s).ack = s.ack := rfl
@[simp] theorem storeSettings_fs (b g : Word) (p : Profile) (f : Formula) (s : State) : (storeSettings b g p f s).fs = s.fs := rfl
@[simp] theorem storeSettings_bias (b g : Word) (p : Profile) (f : Formula) (s : State) : (storeSettings b g p f s).bias = b := rfl
@[simp] theorem storeSettings_ingain (b g : Word) (p : Profile) (f : Formula) (s : State) : (storeSettings b g p f s).ingain = g := rfl
@[simp] theorem storeSettings_profile (b g : Word) (p : Profile) (f : Formula) (s : State) : (storeSettings b g p f s).profile = p := rfl
@[simp] theorem storeSettings_formula (b g : Word) (p : Profile) (f : Formula) (s : State) : (storeSettings b g p f s).formula = f := rfl
@[simp] theorem storeSettings_tuning (b g : Word) (p : Profile) (f : Formula) (s : State) : (storeSettings b g p f s).tuning = s.tuning := rfl
@[simp] theorem storeSettings_shield (b g : Word) (p : Profile) (f : Formula) (s : State) : (storeSettings b g p f s).shield = s.shield := rfl
@[simp] theorem storeSettings_eqa (b g : Word) (p : Profile) (f : Formula) (s : State) : (storeSettings b g p f s).eqa = s.eqa := rfl
@[simp] theorem storeSettings_eqb (b g : Word) (p : Profile) (f : Formula) (s : State) : (storeSettings b g p f s).eqb = s.eqb := rfl
@[simp] theorem storeSettings_dcb (b g : Word) (p : Profile) (f : Formula) (s : State) : (storeSettings b g p f s).dcb = s.dcb := rfl
@[simp] theorem storeSettings_shieldNorm (b g : Word) (p : Profile) (f : Formula) (s : State) : (storeSettings b g p f s).shieldNorm = s.shieldNorm := rfl
@[simp] theorem storeSettings_disp (b g : Word) (p : Profile) (f : Formula) (s : State) : (storeSettings b g p f s).disp = s.disp := rfl
@[simp] theorem storeSettings_satEnv (b g : Word) (p : Profile) (f : Formula) (s : State) : (storeSettings b g p f s).satEnv = s.satEnv := rfl
@[simp] theorem storeSettings_blendEnv (b g : Word) (p : Profile) (f : Formula) (s : State) : (storeSettings b g p f s).blendEnv = s.blendEnv := rfl
@[simp] theorem storeSettings_blendAtt (b g : Word) (p : Profile) (f : Formula) (s : State) : (storeSettings b g p f s).blendAtt = s.blendAtt := rfl
@[simp] theorem storeSettings_blendRel (b g : Word) (p : Profile) (f : Formula) (s : State) : (storeSettings b g p f s).blendRel = s.blendRel := rfl
@[simp] theorem storeSettings_fadeGain (b g : Word) (p : Profile) (f : Formula) (s : State) : (storeSettings b g p f s).fadeGain = s.fadeGain := rfl
@[simp] theorem storeSettings_fadeInc (b g : Word) (p : Profile) (f : Formula) (s : State) : (storeSettings b g p f s).fadeInc = s.fadeInc := rfl
@[simp] theorem storeSettings_hystH (b g : Word) (p : Profile) (f : Formula) (s : State) : (storeSettings b g p f s).hystH = s.hystH := rfl
@[simp] theorem storeSettings_hystM (b g : Word) (p : Profile) (f : Formula) (s : State) : (storeSettings b g p f s).hystM = s.hystM := rfl
@[simp] theorem storeSettings_azDelay (b g : Word) (p : Profile) (f : Formula) (s : State) : (storeSettings b g p f s).azDelay = s.azDelay := rfl
@[simp] theorem storeSettings_azInt (b g : Word) (p : Profile) (f : Formula) (s : State) : (storeSettings b g p f s).azInt = s.azInt := rfl
@[simp] theorem storeSettings_azFrac (b g : Word) (p : Profile) (f : Formula) (s : State) : (storeSettings b g p f s).azFrac = s.azFrac := rfl
@[simp] theorem storeSettings_azCoeff (b g : Word) (p : Profile) (f : Formula) (s : State) : (storeSettings b g p f s).azCoeff = s.azCoeff := rfl
@[simp] theorem storeSettings_azZ (b g : Word) (p : Profile) (f : Formula) (s : State) : (storeSettings b g p f s).azZ = s.azZ := rfl
@[simp] theorem storeSettings_azWidx (b g : Word) (p : Profile) (f : Formula) (s : State) : (storeSettings b g p f s).azWidx = s.azWidx := rfl
@[simp] theorem storeSettings_mem (b g : Word) (p : Profile) (f : Formula) (s : State) : (storeSettings b g p f s).mem = s.mem := rfl
@[simp] theorem storeSettings_par (b g : Word) (p : Profile) (f : Formula) (s : State) : (storeSettings b g p f s).par = s.par := rfl
@[simp] theorem storeSettings_pending (b g : Word) (p : Profile) (f : Formula) (s : State) : (storeSettings b g p f s).pending = s.pending := rfl
@[simp] theorem storeSettings_rdata (b g : Word) (p : Profile) (f : Formula) (s : State) : (storeSettings b g p f s).rdata = s.rdata := rfl

/-! ### RESET (R343) -/

@[simp] theorem zeroSignal_cmd (s : State) : (zeroSignal s).cmd = s.cmd := rfl
@[simp] theorem zeroSignal_op0 (s : State) : (zeroSignal s).op0 = s.op0 := rfl
@[simp] theorem zeroSignal_op1 (s : State) : (zeroSignal s).op1 = s.op1 := rfl
@[simp] theorem zeroSignal_res (s : State) : (zeroSignal s).res = s.res := rfl
@[simp] theorem zeroSignal_blockState (s : State) : (zeroSignal s).blockState = s.blockState := rfl
@[simp] theorem zeroSignal_fault (s : State) : (zeroSignal s).fault = s.fault := rfl
@[simp] theorem zeroSignal_ack (s : State) : (zeroSignal s).ack = s.ack := rfl
@[simp] theorem zeroSignal_fs (s : State) : (zeroSignal s).fs = s.fs := rfl
@[simp] theorem zeroSignal_bias (s : State) : (zeroSignal s).bias = s.bias := rfl
@[simp] theorem zeroSignal_ingain (s : State) : (zeroSignal s).ingain = s.ingain := rfl
@[simp] theorem zeroSignal_profile (s : State) : (zeroSignal s).profile = s.profile := rfl
@[simp] theorem zeroSignal_formula (s : State) : (zeroSignal s).formula = s.formula := rfl
@[simp] theorem zeroSignal_tuning (s : State) : (zeroSignal s).tuning = s.tuning := rfl
@[simp] theorem zeroSignal_shield (s : State) : (zeroSignal s).shield = bankReset s.shield := rfl
@[simp] theorem zeroSignal_eqa (s : State) : (zeroSignal s).eqa = bankReset s.eqa := rfl
@[simp] theorem zeroSignal_eqb (s : State) : (zeroSignal s).eqb = bankReset s.eqb := rfl
@[simp] theorem zeroSignal_dcb (s : State) : (zeroSignal s).dcb = bankReset s.dcb := rfl
@[simp] theorem zeroSignal_shieldNorm (s : State) : (zeroSignal s).shieldNorm = s.shieldNorm := rfl
@[simp] theorem zeroSignal_disp (s : State) : (zeroSignal s).disp = s.disp.map apReset := rfl
@[simp] theorem zeroSignal_satEnv (s : State) : (zeroSignal s).satEnv = Lit.zero := rfl
@[simp] theorem zeroSignal_blendEnv (s : State) : (zeroSignal s).blendEnv = Lit.zero := rfl
@[simp] theorem zeroSignal_blendAtt (s : State) : (zeroSignal s).blendAtt = s.blendAtt := rfl
@[simp] theorem zeroSignal_blendRel (s : State) : (zeroSignal s).blendRel = s.blendRel := rfl
@[simp] theorem zeroSignal_fadeGain (s : State) : (zeroSignal s).fadeGain = Lit.zero := rfl
@[simp] theorem zeroSignal_fadeInc (s : State) : (zeroSignal s).fadeInc = s.fadeInc := rfl
@[simp] theorem zeroSignal_hystH (s : State) : (zeroSignal s).hystH = Lit.zero := rfl
@[simp] theorem zeroSignal_hystM (s : State) : (zeroSignal s).hystM = Lit.zero := rfl
@[simp] theorem zeroSignal_azDelay (s : State) : (zeroSignal s).azDelay = s.azDelay := rfl
@[simp] theorem zeroSignal_azInt (s : State) : (zeroSignal s).azInt = s.azInt := rfl
@[simp] theorem zeroSignal_azFrac (s : State) : (zeroSignal s).azFrac = s.azFrac := rfl
@[simp] theorem zeroSignal_azCoeff (s : State) : (zeroSignal s).azCoeff = s.azCoeff := rfl
@[simp] theorem zeroSignal_azZ (s : State) : (zeroSignal s).azZ = Lit.zero := rfl
@[simp] theorem zeroSignal_azWidx (s : State) : (zeroSignal s).azWidx = 0 := rfl
@[simp] theorem zeroSignal_mem (s : State) : (zeroSignal s).mem = [] := rfl
@[simp] theorem zeroSignal_par (s : State) : (zeroSignal s).par = s.par := rfl
@[simp] theorem zeroSignal_pending (s : State) : (zeroSignal s).pending = s.pending := rfl
@[simp] theorem zeroSignal_rdata (s : State) : (zeroSignal s).rdata = s.rdata := rfl

/-! ### Hardware reset (R430): the parameters and the host's side of the port stay -/

@[simp] theorem hwReset_cmd (s : State) : (hwReset s).cmd = (State.resetWith s.par).cmd := rfl
@[simp] theorem hwReset_op0 (s : State) : (hwReset s).op0 = (State.resetWith s.par).op0 := rfl
@[simp] theorem hwReset_op1 (s : State) : (hwReset s).op1 = (State.resetWith s.par).op1 := rfl
@[simp] theorem hwReset_res (s : State) : (hwReset s).res = (State.resetWith s.par).res := rfl
@[simp] theorem hwReset_blockState (s : State) : (hwReset s).blockState = (State.resetWith s.par).blockState := rfl
@[simp] theorem hwReset_fault (s : State) : (hwReset s).fault = (State.resetWith s.par).fault := rfl
@[simp] theorem hwReset_ack (s : State) : (hwReset s).ack = (State.resetWith s.par).ack := rfl
@[simp] theorem hwReset_fs (s : State) : (hwReset s).fs = (State.resetWith s.par).fs := rfl
@[simp] theorem hwReset_bias (s : State) : (hwReset s).bias = (State.resetWith s.par).bias := rfl
@[simp] theorem hwReset_ingain (s : State) : (hwReset s).ingain = (State.resetWith s.par).ingain := rfl
@[simp] theorem hwReset_profile (s : State) : (hwReset s).profile = (State.resetWith s.par).profile := rfl
@[simp] theorem hwReset_formula (s : State) : (hwReset s).formula = (State.resetWith s.par).formula := rfl
@[simp] theorem hwReset_tuning (s : State) : (hwReset s).tuning = (State.resetWith s.par).tuning := rfl
@[simp] theorem hwReset_shield (s : State) : (hwReset s).shield = (State.resetWith s.par).shield := rfl
@[simp] theorem hwReset_eqa (s : State) : (hwReset s).eqa = (State.resetWith s.par).eqa := rfl
@[simp] theorem hwReset_eqb (s : State) : (hwReset s).eqb = (State.resetWith s.par).eqb := rfl
@[simp] theorem hwReset_dcb (s : State) : (hwReset s).dcb = (State.resetWith s.par).dcb := rfl
@[simp] theorem hwReset_shieldNorm (s : State) : (hwReset s).shieldNorm = (State.resetWith s.par).shieldNorm := rfl
@[simp] theorem hwReset_disp (s : State) : (hwReset s).disp = (State.resetWith s.par).disp := rfl
@[simp] theorem hwReset_satEnv (s : State) : (hwReset s).satEnv = (State.resetWith s.par).satEnv := rfl
@[simp] theorem hwReset_blendEnv (s : State) : (hwReset s).blendEnv = (State.resetWith s.par).blendEnv := rfl
@[simp] theorem hwReset_blendAtt (s : State) : (hwReset s).blendAtt = (State.resetWith s.par).blendAtt := rfl
@[simp] theorem hwReset_blendRel (s : State) : (hwReset s).blendRel = (State.resetWith s.par).blendRel := rfl
@[simp] theorem hwReset_fadeGain (s : State) : (hwReset s).fadeGain = (State.resetWith s.par).fadeGain := rfl
@[simp] theorem hwReset_fadeInc (s : State) : (hwReset s).fadeInc = (State.resetWith s.par).fadeInc := rfl
@[simp] theorem hwReset_hystH (s : State) : (hwReset s).hystH = (State.resetWith s.par).hystH := rfl
@[simp] theorem hwReset_hystM (s : State) : (hwReset s).hystM = (State.resetWith s.par).hystM := rfl
@[simp] theorem hwReset_azDelay (s : State) : (hwReset s).azDelay = (State.resetWith s.par).azDelay := rfl
@[simp] theorem hwReset_azInt (s : State) : (hwReset s).azInt = (State.resetWith s.par).azInt := rfl
@[simp] theorem hwReset_azFrac (s : State) : (hwReset s).azFrac = (State.resetWith s.par).azFrac := rfl
@[simp] theorem hwReset_azCoeff (s : State) : (hwReset s).azCoeff = (State.resetWith s.par).azCoeff := rfl
@[simp] theorem hwReset_azZ (s : State) : (hwReset s).azZ = (State.resetWith s.par).azZ := rfl
@[simp] theorem hwReset_azWidx (s : State) : (hwReset s).azWidx = (State.resetWith s.par).azWidx := rfl
@[simp] theorem hwReset_mem (s : State) : (hwReset s).mem = (State.resetWith s.par).mem := rfl
@[simp] theorem hwReset_par (s : State) : (hwReset s).par = s.par := rfl
@[simp] theorem hwReset_pending (s : State) : (hwReset s).pending = s.pending := rfl
@[simp] theorem hwReset_rdata (s : State) : (hwReset s).rdata = s.rdata := rfl

end Sys2Proof.Machine
end

