-- ==== Sys2Proof/Laws/Frame.lean ====
section
/-! SUPPORT. Said once: what the execution frame, a command and a step can do. -/

namespace Sys2Proof.Machine

/-- The execution frame (R340) answers in one of three ways. -/
theorem framed_cases (s : State) (body : State → Except FaultCode State) :
    (s.fault.isSome = true ∧ framed s body = refuse s) ∨
    (s.fault = none ∧ ∃ t, body s = .ok t ∧ framed s body = complete t) ∨
    (s.fault = none ∧ ∃ c, body s = .error c ∧ framed s body = raiseFault c s) := by
  unfold framed
  by_cases h : s.fault.isSome = true
  · exact .inl ⟨h, by simp [h]⟩
  · have hn : s.fault = none := by simpa using h
    cases hb : body s with
    | ok t => exact .inr (.inl ⟨hn, t, rfl, by simp [hn]⟩)
    | error c => exact .inr (.inr ⟨hn, c, rfl, by simp [hn]⟩)

/-- The frame with no fault pending and a rule that raises none. -/
theorem framed_ok {s t : State} {body : State → Except FaultCode State} (hf : s.fault = none)
    (hb : body s = .ok t) : framed s body = complete t := by simp [framed, hf, hb]

/-- The frame with no fault pending and a rule that raises one. -/
theorem framed_error {s : State} {c : FaultCode} {body : State → Except FaultCode State} (hf : s.fault = none)
    (hb : body s = .error c) : framed s body = raiseFault c s := by simp [framed, hf, hb]

/-- The frame with a fault pending. -/
theorem framed_refused {s : State} {body : State → Except FaultCode State} (hf : s.fault.isSome = true) :
    framed s body = refuse s := by simp [framed, hf]

/-- Everything a host write can do. -/
theorem hostWrite_cases {offset : Nat} {lanes : List Byte} {s t : State} (h : hostWrite offset lanes s = .next t) :
    (windowReg offset lanes.length = some .cmd ∧ issue lanes s = .next t) ∨
    (windowReg offset lanes.length = some .op0 ∧ t = { s with op0 := BitVec.ofNat 64 (ofLanes lanes) }) ∨
    (windowReg offset lanes.length = some .op1 ∧ t = { s with op1 := BitVec.ofNat 64 (ofLanes lanes) }) ∨
    ((windowReg offset lanes.length = some .reserved ∨ windowReg offset lanes.length = some .res ∨
      windowReg offset lanes.length = some .status) ∧ t = s) := by
  unfold hostWrite at h
  split at h
  · exact .inl ⟨‹_›, h⟩
  · cases h
    exact .inr (.inl ⟨‹_›, rfl⟩)
  · cases h
    exact .inr (.inr (.inl ⟨‹_›, rfl⟩))
  · cases h
    exact .inr (.inr (.inr ⟨.inl ‹_›, rfl⟩))
  · cases h
    exact .inr (.inr (.inr ⟨.inr (.inl ‹_›), rfl⟩))
  · cases h
    exact .inr (.inr (.inr ⟨.inr (.inr ‹_›), rfl⟩))
  · cases h

/-- Everything a word written to `CMD` can do. -/
theorem issue_cases {lanes : List Byte} {s t : State} (h : issue lanes s = .next t) :
    (∃ i, decodeBytes lanes = .ok i ∧ exec i { s with cmd := cmdOfLanes lanes } = .next t) ∨
    (∃ e, decodeBytes lanes = .error e ∧ t = illegalCommand { s with cmd := cmdOfLanes lanes }) := by
  unfold issue at h
  split at h
  · exact .inl ⟨_, ‹_›, h⟩
  · cases h
    exact .inr ⟨_, ‹_›, rfl⟩

/-- Everything a step that answers a next state can do: wait, pulse reset, answer a read, or take a write. -/
theorem step_cases {s t : State} (h : step s = .next t) :
    (s.pending = [] ∧ t = s) ∨
    (∃ rest, s.pending = .resetPulse :: rest ∧ t = hwReset { s with pending := rest }) ∨
    (∃ offset width rest r, s.pending = .read offset width :: rest ∧ windowReg offset width = some r ∧
      t = { s with pending := rest, rdata := toLanes width (windowValue { s with pending := rest } r) }) ∨
    (∃ offset lanes rest, s.pending = .write offset lanes :: rest ∧
      hostWrite offset lanes { s with pending := rest } = .next t) := by
  unfold step at h
  cases hp : s.pending with
  | nil =>
    simp only [hp] at h
    cases h
    exact .inl ⟨rfl, rfl⟩
  | cons e rest =>
    simp only [hp] at h
    cases e with
    | write offset lanes => exact .inr (.inr (.inr ⟨offset, lanes, rest, rfl, h⟩))
    | read offset width =>
      simp only [takeEvent, hostRead] at h
      split at h
      · cases h
        exact .inr (.inr (.inl ⟨offset, width, rest, _, rfl, ‹_›, rfl⟩))
      · cases h
    | resetPulse =>
      simp only [takeEvent] at h
      cases h
      exact .inr (.inl ⟨rest, rfl, rfl⟩)

/-- RD_REG: what it answers. -/
theorem execRdReg_cases (a : Nat) (s : State) :
    (∃ v, regRead s a = some v ∧ execRdReg a s = .next (complete { s with res := v })) ∨
    (regRead s a = none ∧ execRdReg a s = .next (raiseFault .badAddr s)) := by
  unfold execRdReg
  cases h : regRead s a with
  | none => exact .inr ⟨rfl, rfl⟩
  | some v => exact .inl ⟨v, rfl, rfl⟩

end Sys2Proof.Machine
end

