-- ==== Sys2Proof/Laws/Memory.lean ====
section
/-! SUPPORT. The ring memory: what a byte write changes, that every write keeps the canonical form, and the byte lanes of a
word. -/

namespace Sys2Proof.Machine

/-! ### Byte lanes (R85) -/

@[simp] theorem toLanes_length (k n : Nat) : (toLanes k n).length = k := by
  induction k generalizing n with
  | zero => rfl
  | succ k ih => simp [toLanes, ih]

/-- The lanes of a number spell it, modulo their range. -/
theorem ofLanes_toLanes (k n : Nat) : ofLanes (toLanes k n) = n % 256 ^ k := by
  induction k generalizing n with
  | zero => simp [toLanes, ofLanes, Nat.mod_one]
  | succ k ih =>
    have h : (BitVec.ofNat 8 n).toNat = n % 256 := BitVec.toNat_ofNat n 8
    rw [toLanes, ofLanes, ih, h, Nat.pow_succ', Nat.mod_mul]

/-- A number that lanes spell fits them. -/
theorem ofLanes_lt (l : List Byte) : ofLanes l < 256 ^ l.length := by
  induction l with
  | nil => simp [ofLanes]
  | cons b rest ih =>
    have hb := b.isLt
    simp only [ofLanes, List.length_cons, Nat.pow_succ']
    omega

/-- Lanes are the lanes of the number they spell. -/
theorem toLanes_ofLanes (l : List Byte) : toLanes l.length (ofLanes l) = l := by
  induction l with
  | nil => rfl
  | cons b rest ih =>
    have hb := b.isLt
    have h1 : (b.toNat + 256 * ofLanes rest) / 256 = ofLanes rest := by omega
    have h2 : BitVec.ofNat 8 (b.toNat + 256 * ofLanes rest) = b := by
      apply BitVec.eq_of_toNat_eq
      simp only [BitVec.toNat_ofNat]
      omega
    simp only [ofLanes, List.length_cons, toLanes, h1, h2, ih]

/-! ### A byte write -/

/-- Reading back a written byte, and every other byte as before. -/
theorem readByte_writeByte (m : Memory) (a b : Nat) (v : Byte) (hm : Memory.wf m = true) :
    Memory.readByte (Memory.writeByte m a v) b = if b = a then v else Memory.readByte m b := by
  induction m with
  | nil =>
    by_cases hv : v = memDefault <;> by_cases hb : b = a
    · simp [Memory.writeByte, Memory.readByte, hv]
    · simp [Memory.writeByte, Memory.readByte, hv]
    · simp [Memory.writeByte, Memory.readByte, hv, hb]
    · have : ¬ a = b := fun h => hb h.symm
      simp [Memory.writeByte, Memory.readByte, hv, hb, this]
  | cons c rest ih =>
    simp only [Memory.wf, Bool.and_eq_true, decide_eq_true_eq, List.all_eq_true] at hm
    obtain ⟨⟨-, hlt⟩, hrest⟩ := hm
    have above : ∀ x, x ≤ c.1 → Memory.readByte rest x = memDefault := by
      intro x hx
      have hall : ∀ d ∈ rest, c.1 < d.1 := hlt
      clear ih hrest hlt
      induction rest with
      | nil => rfl
      | cons d ds ihd =>
        have hd := hall d (by simp)
        have hne : ¬ d.1 = x := by omega
        simp only [Memory.readByte, hne, if_false]
        exact ihd (fun e he => hall e (by simp [he]))
    unfold Memory.writeByte
    by_cases h1 : a < c.1
    · by_cases hv : v = memDefault
      · by_cases hb : b = a
        · have hne : ¬ c.1 = b := by omega
          simp [h1, hv, hb, Memory.readByte, show ¬ c.1 = a by omega, above a (by omega)]
        · simp [h1, hv, hb]
      · by_cases hb : b = a
        · simp [h1, hv, hb, Memory.readByte]
        · have hne : ¬ a = b := fun h => hb h.symm
          simp [h1, hv, hb, Memory.readByte, hne]
    · by_cases h2 : a = c.1
      · by_cases hv : v = memDefault
        · by_cases hb : b = a
          · simp [h2, hv, hb, above c.1 (by omega)]
          · have hne : ¬ c.1 = b := by omega
            simp [h2, hv, show ¬ b = c.1 by omega, Memory.readByte, hne]
        · by_cases hb : b = a
          · simp [h2, hv, hb, Memory.readByte]
          · have hne : ¬ c.1 = b := by omega
            simp [h2, hv, show ¬ b = c.1 by omega, Memory.readByte, hne]
      · simp only [h1, h2, if_false, Memory.readByte, ih hrest]
        by_cases hb : b = a
        · have hne : ¬ c.1 = a := by omega
          simp [hb, hne]
        · simp [hb]

/-- Every entry of a written memory is an old entry or the written byte, at its address. -/
theorem mem_writeByte (m : Memory) (a : Nat) (v : Byte) (d : Host.Cell) (h : d ∈ Memory.writeByte m a v) :
    d ∈ m ∨ (d = (a, v) ∧ v ≠ memDefault) := by
  induction m with
  | nil =>
    unfold Memory.writeByte at h
    split at h
    · cases h
    · exact .inr ⟨by simpa using h, ‹_›⟩
  | cons c rest ih =>
    unfold Memory.writeByte at h
    split at h
    · split at h
      · exact .inl h
      · rcases List.mem_cons.mp h with h | h
        · exact .inr ⟨h, ‹_›⟩
        · exact .inl h
    · split at h
      · split at h
        · exact .inl (List.mem_cons_of_mem _ h)
        · rcases List.mem_cons.mp h with h | h
          · exact .inr ⟨h, ‹_›⟩
          · exact .inl (List.mem_cons_of_mem _ h)
      · rcases List.mem_cons.mp h with h | h
        · exact .inl (h ▸ List.mem_cons_self)
        · exact (ih h).imp (List.mem_cons_of_mem _) id

/-- A byte write keeps the canonical form. -/
theorem wf_writeByte (m : Memory) (a : Nat) (v : Byte) (hm : Memory.wf m = true) :
    Memory.wf (Memory.writeByte m a v) = true := by
  induction m with
  | nil =>
    unfold Memory.writeByte
    split
    · rfl
    · simp [Memory.wf, *]
  | cons c rest ih =>
    simp only [Memory.wf, Bool.and_eq_true, decide_eq_true_eq, List.all_eq_true] at hm
    obtain ⟨⟨hc, hlt⟩, hrest⟩ := hm
    have hself : Memory.wf (c :: rest) = true := by
      simp only [Memory.wf, Bool.and_eq_true, decide_eq_true_eq, List.all_eq_true]
      exact ⟨⟨hc, hlt⟩, hrest⟩
    unfold Memory.writeByte
    split
    · split
      · exact hself
      · rename_i h1 hv
        simp only [Memory.wf, Bool.and_eq_true, decide_eq_true_eq, List.all_eq_true]
        refine ⟨⟨hv, fun d hd => ?_⟩, ⟨⟨hc, hlt⟩, hrest⟩⟩
        rcases List.mem_cons.mp hd with rfl | hd
        · exact h1
        · exact Nat.lt_trans h1 (hlt d hd)
    · split
      · split
        · exact hrest
        · rename_i h1 h2 hv
          simp only [Memory.wf, Bool.and_eq_true, decide_eq_true_eq, List.all_eq_true]
          exact ⟨⟨hv, fun d hd => h2 ▸ hlt d hd⟩, hrest⟩
      · rename_i h1 h2
        simp only [Memory.wf, Bool.and_eq_true, decide_eq_true_eq, List.all_eq_true]
        refine ⟨⟨hc, fun d hd => ?_⟩, ih hrest⟩
        rcases mem_writeByte rest a v d hd with hd | ⟨rfl, -⟩
        · exact hlt d hd
        · show c.1 < a
          omega

/-- Writing bytes keeps the canonical form. -/
theorem wf_writeBytes (m : Memory) (a : Nat) (l : List Byte) (hm : Memory.wf m = true) :
    Memory.wf (Memory.writeBytes m a l) = true := by
  induction l generalizing m a with
  | nil => exact hm
  | cons b rest ih => exact ih _ _ (wf_writeByte m a b hm)

/-- A ring write keeps the canonical form. -/
theorem wf_ringWrite (m : Memory) (i : Fin 16) (v : Word) (hm : Memory.wf m = true) :
    Memory.wf (ringWrite m i v) = true := wf_writeBytes _ _ _ hm

/-- What writing bytes leaves at an address: the lane written there, or what was there. -/
theorem readByte_writeBytes (m : Memory) (a b : Nat) (l : List Byte) (hm : Memory.wf m = true) :
    Memory.readByte (Memory.writeBytes m a l) b =
      if h : a ≤ b ∧ b < a + l.length then l[b - a]'(by omega) else Memory.readByte m b := by
  induction l generalizing m a with
  | nil =>
    rw [dif_neg (by simp only [List.length_nil]; omega)]
    rfl
  | cons v rest ih =>
    simp only [Memory.writeBytes]
    rw [ih _ _ (wf_writeByte m a v hm), readByte_writeByte m a b v hm]
    by_cases h1 : a + 1 ≤ b ∧ b < a + 1 + rest.length
    · have h2 : a ≤ b ∧ b < a + (v :: rest).length := by simp only [List.length_cons]; omega
      rw [dif_pos h1, dif_pos h2]
      have h3 : b - a = (b - (a + 1)) + 1 := by omega
      simp [h3]
    · rw [dif_neg h1]
      by_cases hb : b = a
      · subst hb
        simp
      · have h2 : ¬ (a ≤ b ∧ b < a + (v :: rest).length) := by simp only [List.length_cons]; omega
        rw [if_neg hb, dif_neg h2]

/-- A ring write touches the eight bytes of its word and no other. -/
theorem readByte_ringWrite_of_outside (m : Memory) (i : Fin 16) (v : Word) (b : Nat)
    (hm : Memory.wf m = true) (hb : b < ringAddr i ∨ ringAddr i + 8 ≤ b) :
    Memory.readByte (ringWrite m i v) b = Memory.readByte m b := by
  unfold ringWrite
  rw [readByte_writeBytes _ _ _ _ hm, dif_neg]
  simp only [toLanes_length]
  omega

end Sys2Proof.Machine
end

