-- ==== Sys2Proof/Laws/NumLib.lean ====
section
/-! SUPPORT. The properties that R13 (spec/00_scope.md) assumes of every library, where the model imposes them. -/

namespace Sys2Proof.Machine

/-- `pow(x, 0.0) = 1.0` for every library and every `x`. -/
theorem NumLibChoice.pow_zero (L : NumLibChoice) (x : Word) {y : Word} (hy : F64.isZero y = true) :
    NumLibChoice.pow L x y = Lit.one := by
  cases L with
  | correctlyRounded => simp [NumLibChoice.pow, crPow, hy]
  | platform id => simp [NumLibChoice.pow, hy]

/-- A value held inside (0, 1) lies there. -/
theorem expInside_spec (e : Word) : F64.lt Lit.zero (expInside e) = true ∧ F64.lt (expInside e) Lit.one = true := by
  unfold expInside
  split
  · rename_i h
    simpa using h
  · decide +kernel

/-- A value that lies in (0, 1) is left as it is. -/
theorem expInside_of_mem {e : Word} (h0 : F64.lt Lit.zero e = true) (h1 : F64.lt e Lit.one = true) :
    expInside e = e := by
  simp [expInside, h0, h1]

/-- `exp` of a platform library lies in (0, 1) at a moderate negative number. -/
theorem NumLibChoice.exp_platform_mem (id : Nat) {x : Word} (hx : expModerate x = true) :
    F64.lt Lit.zero (NumLibChoice.exp (.platform id) x) = true ∧
    F64.lt (NumLibChoice.exp (.platform id) x) Lit.one = true := by
  simp only [NumLibChoice.exp, hx, if_true]
  exact expInside_spec _

/-- A value cut to the bound is at most 1 in magnitude. -/
theorem tanhBound_le (t : Word) : F64.le (F64.abs (tanhBound t)) Lit.one = true := by
  unfold tanhBound
  split
  · assumption
  · decide +kernel

/-- A value within the bound is left as it is. -/
theorem tanhBound_of_le {t : Word} (h : F64.le (F64.abs t) Lit.one = true) : tanhBound t = t := if_pos h

/-- `tanh` of a platform library is at most 1 in magnitude. -/
theorem NumLibChoice.tanh_platform_le (id : Nat) (x : Word) :
    F64.le (F64.abs (NumLibChoice.tanh (.platform id) x)) Lit.one = true := by
  have habs (w : Word) : F64.abs (F64.neg w) = F64.abs w := by simp [F64.abs]
  unfold NumLibChoice.tanh
  simp only
  split
  · rw [habs]
    exact tanhBound_le _
  · exact tanhBound_le _

/-- `tanh` of a platform library is odd. -/
theorem NumLibChoice.tanh_platform_neg (id : Nat) (x : Word) :
    NumLibChoice.tanh (.platform id) (F64.neg x) = F64.neg (NumLibChoice.tanh (.platform id) x) := by
  have ha : F64.abs (F64.neg x) = F64.abs x := by simp [F64.abs]
  have hp (h : F64.isNeg x = false) : F64.abs x = x := by
    have hx := F64.pack_self x
    rwa [h] at hx
  have hn (h : F64.isNeg x = true) : F64.neg x = F64.abs x := by simp [F64.neg, F64.abs, h]
  by_cases h : F64.isNeg x = true
  · simp [NumLibChoice.tanh, h, hn h]
  · have h' : F64.isNeg x = false := by simpa using h
    simp [NumLibChoice.tanh, h', ha, hp h']

end Sys2Proof.Machine
end

