-- ==== Sys2Proof/Laws/PerInstr.lean ====
section
/-! SUPPORT. Statements made per instruction: `TableRow` says that a command's word has the fixed bits of its row of
spec/opcode_table.json (spec/30_encoding.md R106). -/

namespace Sys2Proof.Laws

/-- The word of a well-formed command has its row's fixed bits: `(w & mask) == match` (R106). -/
def TableRow.Statement (i : Instr) : Prop :=
  i.wellFormed = true → encode i &&& rowMask i = rowMatch i

theorem TableRow.nop : TableRow.Statement .nop := fun _ => by decide
theorem TableRow.configure : TableRow.Statement .configure := fun _ => by decide
theorem TableRow.setProfile (f : Formula) : TableRow.Statement (.setProfile f) := fun _ => by
  cases f <;> decide
theorem TableRow.reset : TableRow.Statement .reset := fun _ => by decide
theorem TableRow.process : TableRow.Statement .process := fun _ => by decide
theorem TableRow.process2 : TableRow.Statement .process2 := fun _ => by decide
theorem TableRow.rdReg (addr : Nat) : TableRow.Statement (.rdReg addr) := fun h => by
  have ha : addr < 4096 := by simpa [Instr.wellFormed] using h
  have hw : encode (.rdReg addr) = 0x06000#20 ++ BitVec.ofNat 12 addr := by
    apply BitVec.eq_of_toNat_eq
    have h2 := Nat.two_pow_add_eq_or_of_lt (i := 12) (b := addr) (by simpa using ha) 24576
    rw [BitVec.toNat_append, Nat.shiftLeft_eq, BitVec.toNat_ofNat 24576 20, BitVec.toNat_ofNat addr 12,
      Nat.mod_eq_of_lt (a := addr) (by simpa using ha),
      show 24576 % 2 ^ 20 * 2 ^ 12 = 2 ^ 12 * 24576 by decide, ← h2]
    simp only [encode, opcode, lowField, BitVec.toNat_ofNat]
    omega
  have hm : rowMask (.rdReg addr) = 0xFFFFF#20 ++ 0#12 := by simp only [rowMask]; decide
  have hr : rowMatch (.rdReg addr) = 0x06000#20 ++ 0#12 := by simp only [rowMatch, opcode]; decide
  rw [hw, hm, hr, BitVec.and_append]
  simp
theorem TableRow.calSatA3 : TableRow.Statement .calSatA3 := fun _ => by decide
theorem TableRow.calPower : TableRow.Statement .calPower := fun _ => by decide
theorem TableRow.calLowScale : TableRow.Statement .calLowScale := fun _ => by decide
theorem TableRow.calBlendRatio : TableRow.Statement .calBlendRatio := fun _ => by decide
theorem TableRow.calLowThresh : TableRow.Statement .calLowThresh := fun _ => by decide
theorem TableRow.calCurvePower : TableRow.Statement .calCurvePower := fun _ => by decide
theorem TableRow.calKneeThresh : TableRow.Statement .calKneeThresh := fun _ => by decide
theorem TableRow.calKneeAmount : TableRow.Statement .calKneeAmount := fun _ => by decide

end Sys2Proof.Laws
end

