-- ==== Sys2Proof/Laws/Pipeline.lean ====
section
/-! SUPPORT. Said once: which registers each stage of the pipeline writes (R313), and that a guarded value is finite. -/

namespace Sys2Proof.Machine

/-! ### Guards (R14, R15) -/

/-- A guarded value with a finite fallback is finite. -/
theorem guardOr_finite {c fb : Word} (h : F64.isFinite fb = true) : F64.isFinite (guardOr c fb) = true := by
  unfold guardOr
  split
  · assumption
  · exact h

/-- A sanitized sample is finite (R301). -/
theorem sanitize_finite (x : Word) : F64.isFinite (sanitize x) = true := by
  unfold sanitize
  split
  · assumption
  · decide

/-- A bank run that passes its guard keeps the coefficients, and its output and states are finite. -/
theorem bankRun_spec (bank : List Biquad) (x : Word) :
    (bankRun bank x).2.1.map (·.co) = bank.map (·.co) ∧
    ((bankRun bank x).2.2 = true →
      (bank ≠ [] → F64.isFinite (bankRun bank x).1 = true) ∧ (bank = [] → (bankRun bank x).1 = x) ∧
      ∀ b ∈ (bankRun bank x).2.1, F64.isFinite b.z1 = true ∧ F64.isFinite b.z2 = true) := by
  induction bank generalizing x with
  | nil => simp [bankRun]
  | cons b bs ih =>
    obtain ⟨ih1, ih2⟩ := ih (bqProcess b x).1
    refine ⟨by simp [bankRun, ih1], fun hok => ?_⟩
    simp only [bankRun, Bool.and_eq_true] at hok
    obtain ⟨⟨⟨hy, hn1⟩, hn2⟩, hrest⟩ := hok
    obtain ⟨h1, h2, h3⟩ := ih2 hrest
    refine ⟨fun _ => ?_, fun h => by simp at h, fun c hc => ?_⟩
    · simp only [bankRun]
      cases bs with
      | nil => simpa [bankRun] using hy
      | cons b' bs' => exact h1 (by simp)
    · simp only [bankRun, List.mem_cons] at hc
      rcases hc with rfl | hc
      · exact ⟨hn1, hn2⟩
      · exact h3 c hc

/-- A bank never changes a coefficient. -/
theorem bankProcess_coeffs (bank : List Biquad) (x : Word) :
    (bankProcess bank x).2.map (·.co) = bank.map (·.co) := by
  unfold bankProcess
  split
  · exact (bankRun_spec bank x).1
  · rfl

/-- A bank returns a finite value for a finite input (R152). -/
theorem bankProcess_finite (bank : List Biquad) {x : Word} (hx : F64.isFinite x = true) :
    F64.isFinite (bankProcess bank x).1 = true := by
  unfold bankProcess
  split
  · rename_i hok
    obtain ⟨h1, h2, -⟩ := (bankRun_spec bank x).2 hok
    by_cases hb : bank = []
    · rw [h2 hb]
      exact hx
    · exact h1 hb
  · exact hx

/-! ### What each stage writes (R313) -/

/-- The shield writes the shield's bank only. -/
@[simp] theorem shieldProcess_state (s : State) (x : Word) :
    (shieldProcess s x).2 = { s with shield := (bankProcess s.shield x).2 } := rfl

/-- The split writes the shield's bank only. -/
@[simp] theorem split_state (s : State) (x : Word) :
    (split s x).2 = { s with shield := (bankProcess s.shield x).2 } := rfl

/-- A finite output of the port is handed on as it is (R290). -/
@[simp] theorem portOut_of_finite {o : Word} (h : F64.isFinite o = true) : portOut o = o := if_pos h

/-- Every other output of the port is handed on as a NaN (R290). -/
@[simp] theorem portOut_of_not_finite {o : Word} (h : F64.isFinite o = false) : portOut o = F64.nan := by
  simp [portOut, h]

/-- The solver step writes the hysteresis pair only. -/
theorem hystStep_frame (s : State) (v : Word) :
    ∃ h m, (hystStep s v).2 = { s with hystH := h, hystM := m } ∧
      F64.isFinite h = true ∧ F64.isFinite m = true := by
  unfold hystStep hystAccept
  split
  · rename_i h
    simp only [Bool.and_eq_true] at h
    exact ⟨_, _, rfl, h.1, h.2⟩
  · exact ⟨_, _, rfl, by decide, by decide⟩

/-- The saturator writes its envelope only, and only a finite one. -/
theorem satStage_frame (s : State) (x : Word) :
    ∃ e, (satStage s x).2 = { s with satEnv := e } ∧ (e = s.satEnv ∨ F64.isFinite e = true) := by
  unfold satStage
  simp only
  split
  · rename_i h
    simp only [Bool.and_eq_true] at h
    exact ⟨_, rfl, .inr h.2⟩
  · exact ⟨s.satEnv, rfl, .inl rfl⟩

/-- The equalizer writes the active bank only (R155). -/
theorem eqProcess_frame (s : State) (x : Word) :
    ∃ a b, (eqProcess s x).2 = { s with eqa := a, eqb := b } ∧
      (s.profile = .A → b = s.eqb ∧ a = (bankProcess s.eqa x).2) ∧
      (s.profile = .B → a = s.eqa ∧ b = (bankProcess s.eqb x).2) := by
  unfold eqProcess
  cases hp : s.profile with
  | A => exact ⟨_, s.eqb, rfl, fun _ => ⟨rfl, rfl⟩, fun h => by cases h⟩
  | B => exact ⟨s.eqa, _, rfl, fun h => (by cases h), fun _ => ⟨rfl, rfl⟩⟩

/-- A dispersive bank run that passes its guard keeps frequencies and coefficients. -/
theorem dispRun_frame (bank : List DispStage) (x : Word) :
    (dispRun bank x).2.1.map (fun d => (d.freq, d.c)) = bank.map (fun d => (d.freq, d.c)) := by
  induction bank generalizing x with
  | nil => rfl
  | cons d ds ih => simp [dispRun, ih]

/-- The dispersive stage writes the state registers of its own bank only (R186). -/
theorem dispProcess_frame (s : State) (x : Word) :
    ∃ d, (dispProcess s x).2 = { s with disp := d } ∧
      d.map (fun e => (e.freq, e.c)) = s.disp.map (fun e => (e.freq, e.c)) := by
  unfold dispProcess
  split
  · exact ⟨_, rfl, dispRun_frame s.disp x⟩
  · exact ⟨s.disp, rfl, rfl⟩

/-! ### The frame of the whole pipeline (R313) -/

/-- A state with the registers of R313 cleared: what the pipeline cannot change. -/
def State.frozen (s : State) : State :=
  { s with
    shield := s.shield.map bqReset, eqa := s.eqa.map bqReset, eqb := s.eqb.map bqReset, dcb := s.dcb.map bqReset
    disp := s.disp.map apReset, satEnv := Lit.zero, blendEnv := Lit.zero, hystH := Lit.zero, hystM := Lit.zero
    fadeGain := Lit.zero }

/-- A bank changes state registers only. -/
theorem bankProcess_bqReset (bank : List Biquad) (x : Word) :
    (bankProcess bank x).2.map bqReset = bank.map bqReset := by
  have h : ∀ (bank : List Biquad) (x : Word), (bankRun bank x).2.1.map bqReset = bank.map bqReset := by
    intro bank
    induction bank with
    | nil => intro _; rfl
    | cons b bs ih => intro x; simp [bankRun, ih, bqReset]
  unfold bankProcess
  split
  · exact h bank x
  · rfl

theorem split_frozen (s : State) (x : Word) : (split s x).2.frozen = s.frozen := by
  simp only [State.frozen, split_state, bankProcess_bqReset]

theorem blendEnvStep_frozen (s : State) (v : Word) : (blendEnvStep s v).frozen = s.frozen := by
  simp only [State.frozen, blendEnvStep]

theorem hystStep_frozen (s : State) (v : Word) : (hystStep s v).2.frozen = s.frozen := by
  obtain ⟨h, m, he, -, -⟩ := hystStep_frame s v
  rw [he]
  rfl

theorem satStage_frozen (s : State) (x : Word) : (satStage s x).2.frozen = s.frozen := by
  obtain ⟨e, he, -⟩ := satStage_frame s x
  rw [he]
  rfl

theorem eqProcess_frozen (s : State) (x : Word) : (eqProcess s x).2.frozen = s.frozen := by
  unfold eqProcess
  split <;> simp only [State.frozen, bankProcess_bqReset]

theorem dispProcess_frozen (s : State) (x : Word) : (dispProcess s x).2.frozen = s.frozen := by
  have h : ∀ (bank : List DispStage) (x : Word), (dispRun bank x).2.1.map apReset = bank.map apReset := by
    intro bank
    induction bank with
    | nil => intro _; rfl
    | cons d ds ih => intro x; simp [dispRun, ih, apReset]
  unfold dispProcess
  split
  · simp only [State.frozen, h]
  · rfl

theorem dcbProcess_frozen (s : State) (x : Word) : (dcbProcess s x).2.frozen = s.frozen := by
  simp only [State.frozen, dcbProcess, bankProcess_bqReset]

theorem fadeStep_frozen (s : State) (x : Word) : (fadeStep s x).2.frozen = s.frozen := by
  simp only [State.frozen, fadeStep]

theorem pipelineFront_frozen (s : State) (x : Word) : (pipelineFront s x).2.frozen = s.frozen := by
  unfold pipelineFront
  exact (hystStep_frozen _ _).trans ((blendEnvStep_frozen _ _).trans (split_frozen _ _))

theorem pipelineBack_frozen (s : State) (bl c : Word) : (pipelineBack s bl c).2.frozen = s.frozen := by
  unfold pipelineBack
  exact (fadeStep_frozen _ _).trans ((dcbProcess_frozen _ _).trans ((dispProcess_frozen _ _).trans
    ((eqProcess_frozen _ _).trans (satStage_frozen _ _))))

/-- The pipeline changes the registers of R313 and no other. -/
theorem pipeline_frozen (s : State) (x : Word) : (pipeline s x).2.frozen = s.frozen :=
  (pipelineBack_frozen _ _ _).trans (pipelineFront_frozen s x)

/-- The inactive equalizer bank keeps its state (R155). -/
theorem eqProcess_inactive (s : State) (x : Word) :
    (s.profile = .A → (eqProcess s x).2.eqb = s.eqb) ∧ (s.profile = .B → (eqProcess s x).2.eqa = s.eqa) := by
  unfold eqProcess
  cases s.profile <;> simp

/-- The azimuth step writes the ring, its pointer and `AZ_Z` only (R264). -/
theorem azStep_state (s : State) (p : Word) :
    (azStep s p).2 = { s with
      mem := ringWrite s.mem s.azWidx p
      azZ := (azFractional s (ringRead (ringWrite s.mem s.azWidx p) (azReadIndex s))).2
      azWidx := Fin.ofNat 16 (s.azWidx.val + 1) } := rfl

end Sys2Proof.Machine
end

