-- ==== Sys2Proof/Laws/Recompute.lean ====
section
/-! SUPPORT. What a recomputation derives and what committing it writes, each said once. -/

namespace Sys2Proof.Machine

/-! ### Designs (R144, R151, R184) -/

/-- A designed section has finite coefficients. -/
theorem bqDesign_finite {L : NumLibChoice} {d : Descriptor} {fs : Word} {c : Coeffs} (h : bqDesign L d fs = some c) :
    c.finite = true := by
  unfold bqDesign at h
  split at h
  · split at h
    · split at h
      · cases h
        assumption
      · cases h
    · cases h
  · cases h

/-- A designed list has one finite set of coefficients for each descriptor. -/
theorem designAll_spec {L : NumLibChoice} {fs : Word} {ds : List Descriptor} {cs : List Coeffs}
    (h : designAll L fs ds = some cs) : cs.length = ds.length ∧ ∀ c ∈ cs, c.finite = true := by
  induction ds generalizing cs with
  | nil =>
    simp only [designAll, Option.some.injEq] at h
    subst h
    simp
  | cons d ds ih =>
    unfold designAll at h
    split at h
    · rename_i c rest hc hrest
      cases h
      obtain ⟨h1, h2⟩ := ih hrest
      refine ⟨by simp [h1], fun b hb => ?_⟩
      rcases List.mem_cons.mp hb with rfl | hb
      · exact bqDesign_finite hc
      · exact h2 b hb
    · cases h

/-- A designed stage has a finite frequency and a finite coefficient. -/
theorem apDesign_finite {L : NumLibChoice} {f fs c : Word} (h : apDesign L f fs = some c) :
    F64.isFinite f = true ∧ F64.isFinite c = true := by
  unfold apDesign at h
  split at h
  · rename_i hf
    simp only [frequencyOk, Bool.and_eq_true] at hf
    simp only at h
    split at h
    · cases h
      exact ⟨hf.1.1, by assumption⟩
    · cases h
  · cases h

/-- A designed dispersive bank has the number of stages asked for, each finite. -/
theorem dispDesign_spec {L : NumLibChoice} {base fs : Word} {n k : Nat} {cs : List (Word × Word)}
    (h : dispDesign L base fs n k = some cs) :
    cs.length = n ∧ ∀ c ∈ cs, F64.isFinite c.1 = true ∧ F64.isFinite c.2 = true := by
  induction n generalizing k cs with
  | zero =>
    simp only [dispDesign, Option.some.injEq] at h
    subst h
    simp
  | succ n ih =>
    unfold dispDesign at h
    split at h
    · rename_i c rest hc hrest
      cases h
      obtain ⟨h1, h2⟩ := ih hrest
      refine ⟨by simp [h1], fun b hb => ?_⟩
      rcases List.mem_cons.mp hb with rfl | hb
      · exact apDesign_finite hc
      · exact h2 b hb
    · cases h

/-- A scope FULL recomputation is its two halves. -/
theorem recomputeFull_some {P : Params} {fs : Word} {p : Profile} {f : Formula} {r : RateSet} {q : ProfileSet} :
    recomputeFull P fs p f = some (r, q) ↔ recomputeRate P fs = some r ∧ recomputeProfile P fs p f = some q := by
  unfold recomputeFull
  cases recomputeRate P fs <;> cases recomputeProfile P fs p f <;> simp

/-- The profile-dependent half loads the tuning of its profile and formula (R349), every field of it finite. -/
theorem recomputeProfile_tuning {P : Params} {fs : Word} {p : Profile} {f : Formula} {q : ProfileSet}
    (h : recomputeProfile P fs p f = some q) : q.tuning = P.tuning p f ∧ Tuning.finite q.tuning = true := by
  unfold recomputeProfile at h
  split at h
  · cases h
  · split at h
    · split at h
      · rename_i ht
        cases h
        simp only [Bool.and_eq_true] at ht
        exact ⟨rfl, ht.1⟩
      · cases h
    · cases h

/-! ### Committing (R348) -/

/-- A committed bank holds the new coefficients. -/
@[simp] theorem bankCoeffs_commitBank (cs : List Coeffs) (bank : List Biquad) :
    bankCoeffs (commitBank cs bank) = cs := by
  induction cs generalizing bank with
  | nil => rfl
  | cons c cs ih =>
    cases bank with
    | nil => simpa [commitBank, bankCoeffs] using ih []
    | cons b bs => simpa [commitBank, bankCoeffs] using ih bs

/-- A committed bank of the same length keeps its state registers (R342, R347). -/
theorem bankSignal_commitBank {cs : List Coeffs} {bank : List Biquad} (h : cs.length = bank.length) :
    bankSignal (commitBank cs bank) = bankSignal bank := by
  induction cs generalizing bank with
  | nil =>
    cases bank with
    | nil => rfl
    | cons b bs => cases h
  | cons c cs ih =>
    cases bank with
    | nil => cases h
    | cons b bs => simpa [commitBank, bankSignal] using ih (by simpa using h)

/-- A committed dispersive bank holds the new frequencies and coefficients. -/
@[simp] theorem dispCoeffs_commitDisp (cs : List (Word × Word)) (bank : List DispStage) :
    dispCoeffs (commitDisp cs bank) = cs := by
  induction cs generalizing bank with
  | nil => rfl
  | cons c cs ih =>
    cases bank with
    | nil => simpa [commitDisp, dispCoeffs] using ih []
    | cons b bs => simpa [commitDisp, dispCoeffs] using ih bs

/-- A committed dispersive bank of the same length keeps its state registers. -/
theorem dispSignal_commitDisp {cs : List (Word × Word)} {bank : List DispStage} (h : cs.length = bank.length) :
    dispSignal (commitDisp cs bank) = dispSignal bank := by
  induction cs generalizing bank with
  | nil =>
    cases bank with
    | nil => rfl
    | cons b bs => cases h
  | cons c cs ih =>
    cases bank with
    | nil => cases h
    | cons b bs => simpa [commitDisp, dispSignal] using ih (by simpa using h)

end Sys2Proof.Machine
end

