-- ==== Sys2Proof/Machine/Assembler.lean ====
section
/-! DEFINITION. The assembler lines and pseudo-commands of spec/30_encoding.md R111 and R112, as the host accesses and the
command sequences they expand into. -/

namespace Sys2Proof.Machine

/-- A line of R111: a command with its operands, by value. RD_REG names its address. -/
inductive AsmLine where
  | nop
  | configure (fs : Word)
  | setProfile (b g : Word) (f : Formula)
  | reset
  | process (x : Word)
  | process2 (x : Word)
  | rdReg (a : Nat)
  | calSatA3 (v : Word)
  | calPower (v : Word)
  | calLowScale (v : Word)
  | calBlendRatio (v : Word)
  | calLowThresh (v : Word)
  | calCurvePower (v : Word)
  | calKneeThresh (v : Word)
  | calKneeAmount (v : Word)
  deriving DecidableEq, Repr

/-- The event that writes a command's word to `CMD`. -/
def cmdEvent (i : Instr) : HostEvent := .write 0x00 (encodeBytes i)

/-- A command whose one operand goes to `OP0`. -/
def oneOperand (v : Word) (i : Instr) : List HostEvent := [wordWrite .op0 v, cmdEvent i]

/-- The host accesses of a line, in order (R111). -/
def expandLine : AsmLine → List HostEvent
  | .nop => [cmdEvent .nop]
  | .configure fs => oneOperand fs .configure
  | .setProfile b g f => [wordWrite .op0 b, wordWrite .op1 g, cmdEvent (.setProfile f)]
  | .reset => [cmdEvent .reset]
  | .process x => oneOperand x .process ++ [regReadEvent .res]
  | .process2 x => oneOperand x .process2 ++ [regReadEvent .res]
  | .rdReg a => [cmdEvent (.rdReg a), regReadEvent .res]
  | .calSatA3 v => oneOperand v .calSatA3
  | .calPower v => oneOperand v .calPower
  | .calLowScale v => oneOperand v .calLowScale
  | .calBlendRatio v => oneOperand v .calBlendRatio
  | .calLowThresh v => oneOperand v .calLowThresh
  | .calCurvePower v => oneOperand v .calCurvePower
  | .calKneeThresh v => oneOperand v .calKneeThresh
  | .calKneeAmount v => oneOperand v .calKneeAmount

/-- The pseudo-commands of R112. -/
inductive Pseudo where
  | init (fs b g : Word) (f : Formula)
  | switch (b g : Word) (f : Formula)
  | read (r : RegName)
  | processBlock (xs : List Word)
  deriving DecidableEq, Repr

/-- The lines a pseudo-command stands for (R112, R434). -/
def expandPseudo : Pseudo → List AsmLine
  | .init fs b g f => [.setProfile b g f, .configure fs, .reset]
  | .switch b g f => [.setProfile b g f, .reset]
  | .read r => [.rdReg r.addr]
  | .processBlock xs => xs.map .process

/-- The host accesses of a program of lines. -/
def expandProgram (lines : List AsmLine) : List HostEvent := (lines.map expandLine).flatten

end Sys2Proof.Machine
end

