-- ==== Sys2Proof/Tests/Slice0.lean ====
section
/-! SUPPORT. Tests of the model. Expected values come from the spec's examples and tables, named at each test. A theorem
`witness_X` shows states and operands that meet every hypothesis of the statement `Obligations.X` together. -/

namespace Sys2Proof.Tests

open Sys2Proof.Machine

-- one kernel check at a time
set_option Elab.async false

/-! ### Helpers -/

/-- The machine after hardware reset under the test configuration T0 of R321. -/
def rst : State := State.resetWith Params.t0

/-- 48000.0, the rate of the worked examples (R342). -/
def hz48 : Word := 0x40E7700000000000#64

/-- The next state of an outcome. -/
def nextOf : Host.Outcome State Fault Refusal → State
  | .next t => t
  | .fault _ => rst
  | .refused _ => rst

/-- An outcome is a next state. -/
def isNext : Host.Outcome State Fault Refusal → Bool
  | .next _ => true
  | .fault _ => false
  | .refused _ => false

theorem next_of_isNext {o : Host.Outcome State Fault Refusal} (h : isNext o = true) : ∃ t, o = .next t := by
  cases o with
  | next t => exact ⟨t, rfl⟩
  | fault _ => cases h
  | refused _ => cases h

theorem exists_of_any {α : Type} {o : Option α} {f : α → Bool} (h : o.any f = true) : ∃ a, o = some a ∧ f a = true := by
  cases o with
  | none => cases h
  | some a => exact ⟨a, rfl, h⟩

/-- Running a command from a state with operands. -/
def runCmd (i : Instr) (s : State) (op0 op1 : Word) : State := nextOf (exec i { s with op0 := op0, op1 := op1 })

/-- T0 configured at 48 kHz, in state Ready. -/
def cfg : State := runCmd .configure rst hz48 Lit.zero

/-- A Ready state in the middle of its life: the fade half way, the azimuth delay one sample, the pointer at its end. -/
def mid : State :=
  { cfg with fadeGain := Lit.half, azFrac := Lit.zero, azInt := 1, azWidx := 15, satEnv := Lit.half
             mem := [(8 * 0x600 + 8 * 14 + 6, 0xF0#8), (8 * 0x600 + 8 * 14 + 7, 0x3F#8)] }

/-- A state with a fault pending. -/
def faulted : State := { rst with fault := some .badRate }

/-! ### Well-formedness and decoding -/

theorem test_rdReg_address_fits : (Instr.rdReg 0xFFF).wellFormed = true := by decide
theorem test_rdReg_address_too_wide : (Instr.rdReg 0x1000).wellFormed = false := by decide

/-- R106, R107, R113: one word for each row, from its match column. -/
theorem test_decode_nop : decode 0x00000000#32 = .ok .nop := by decide
theorem test_decode_configure : decode 0x01000000#32 = .ok .configure := by decide
theorem test_decode_setProfile_f1 : decode 0x02000000#32 = .ok (.setProfile .f1) := by decide
theorem test_decode_setProfile_f2 : decode 0x02000001#32 = .ok (.setProfile .f2) := by decide
theorem test_decode_reset : decode 0x03000000#32 = .ok .reset := by decide
theorem test_decode_process : decode 0x04000000#32 = .ok .process := by decide
theorem test_decode_process2 : decode 0x05000000#32 = .ok .process2 := by decide
theorem test_decode_rdReg : decode 0x06000FFF#32 = .ok (.rdReg 0xFFF) := by decide
theorem test_decode_calSatA3 : decode 0x10000000#32 = .ok .calSatA3 := by decide
theorem test_decode_calPower : decode 0x11000000#32 = .ok .calPower := by decide
theorem test_decode_calLowScale : decode 0x12000000#32 = .ok .calLowScale := by decide
theorem test_decode_calBlendRatio : decode 0x13000000#32 = .ok .calBlendRatio := by decide
theorem test_decode_calLowThresh : decode 0x14000000#32 = .ok .calLowThresh := by decide
theorem test_decode_calCurvePower : decode 0x15000000#32 = .ok .calCurvePower := by decide
theorem test_decode_calKneeThresh : decode 0x16000000#32 = .ok .calKneeThresh := by decide
theorem test_decode_calKneeAmount : decode 0x17000000#32 = .ok .calKneeAmount := by decide
theorem test_decode_unassigned : decode 0x07000000#32 = .error .unassignedOpcode := by decide
theorem test_decode_reserved_bit_f : decode 0x02000002#32 = .error .nonzeroReserved := by decide
theorem test_decode_reserved_bit_a : decode 0x06001000#32 = .error .nonzeroReserved := by decide
theorem test_decode_lanes_little_endian : decodeBytes [0x1C, 0x00, 0x00, 0x06] = .ok (.rdReg 0x01C) := by decide

/-- R111: the accesses of a PROCESS line. -/
theorem test_assembler_process : expandLine (.process Lit.one) =
    [.write 0x08 [0, 0, 0, 0, 0, 0, 0xF0, 0x3F], .write 0x00 [0, 0, 0, 0x04], .read 0x18 8] := by decide

/-! ### One step of each command, from the examples of spec/47_commands.md and spec/60_exceptions.md -/

theorem test_nop_status : statusWord (runCmd .nop rst 0 0) = 0x100#64 := by decide +kernel
theorem test_configure_status : statusWord cfg = 0x101#64 := by decide +kernel
/-- R342: AZ_COEFF = 0.44508670520231214 and FADE_INC = 0x3F223456789ABCDF. -/
theorem test_configure_values : cfg.azCoeff = 0x3FDC7C4CF2AE9CDB#64 ∧ cfg.fadeInc = 0x3F223456789ABCDF#64 := by
  decide +kernel
theorem test_configure_zero_rate : statusWord (runCmd .configure rst Lit.zero 0) = 0x1132#64 := by decide +kernel
theorem test_configure_eight_hertz : statusWord (runCmd .configure rst 0x4020000000000000#64 0) = 0x1142#64 := by
  decide +kernel
theorem test_reset_fade : (runCmd .reset mid 0 0).fadeGain = Lit.zero ∧ (runCmd .reset mid 0 0).mem = [] := by
  decide +kernel
/-- R322: the second sample of an impulse, −2.5687339056192543e-07. -/
theorem test_process_impulse :
    (runCmd .process (runCmd .process cfg Lit.one 0) Lit.zero 0).res = 0xBE913D0D1E810782#64 := by decide +kernel
theorem test_process_unconfigured : statusWord (runCmd .process rst Lit.half 0) = 0x1122#64 := by decide +kernel
/-- R264: one sample behind the pointer, in bypass; R345: the pointer wraps. -/
theorem test_process2_reads_behind : (runCmd .process2 mid Lit.zero 0).res = Lit.one ∧
    (runCmd .process2 mid Lit.zero 0).azWidx = 0 := by decide +kernel
theorem test_rdReg_id : (runCmd (.rdReg 0) rst 0 0).res = 0x0000000042514331#64 := by decide +kernel
theorem test_rdReg_unmapped : statusWord (runCmd (.rdReg 0x107) cfg 0 0) = 0x1163#64 := by decide +kernel
/-- R347: `SET_PROFILE 0.5, 1.0, F2` gives STATUS = 0x201 and AZ_DELAY = 0.576. -/
theorem test_setProfile_switch : statusWord (runCmd (.setProfile .f2) cfg Lit.half Lit.one) = 0x201#64 ∧
    (runCmd (.setProfile .f2) cfg Lit.half Lit.one).azDelay = 0x3FE26E978D4FDF3B#64 := by decide +kernel
theorem test_setProfile_threshold : (runCmd (.setProfile .f1) rst 0x3FE7AE147AE147AE#64 Lit.one).profile = .A ∧
    (runCmd (.setProfile .f1) rst 0x3FE7AE147AE147AD#64 Lit.one).profile = .B := by decide +kernel
theorem test_calSatA3 : (runCmd .calSatA3 rst Lit.half 0).tuning = { rst.tuning with satA3 := Lit.half } := by
  decide +kernel
theorem test_calPower : (runCmd .calPower rst Lit.two 0).tuning = { rst.tuning with satPower := Lit.two } := by
  decide +kernel
theorem test_calLowScale : (runCmd .calLowScale rst Lit.half 0).tuning = { rst.tuning with lowScale := Lit.half } := by
  decide +kernel
theorem test_calBlendRatio :
    (runCmd .calBlendRatio rst Lit.two 0).tuning = { rst.tuning with blendRatio := Lit.two } := by decide +kernel
theorem test_calLowThresh :
    (runCmd .calLowThresh rst Lit.negOne 0).tuning = { rst.tuning with lowThresh := Lit.negOne } := by decide +kernel
theorem test_calCurvePower :
    (runCmd .calCurvePower rst Lit.two 0).tuning = { rst.tuning with curvePower := Lit.two } := by decide +kernel
theorem test_calKneeThresh :
    (runCmd .calKneeThresh rst Lit.half 0).tuning = { rst.tuning with kneeThresh := Lit.half } := by decide +kernel
theorem test_calKneeAmount :
    (runCmd .calKneeAmount rst Lit.two 0).tuning = { rst.tuning with kneeAmount := Lit.two } := by decide +kernel
theorem test_cal_not_finite : statusWord (runCmd .calPower rst 0x7FF0000000000000#64 0) = 0x1152#64 := by
  decide +kernel
/-- R407: a refusal after BAD_RATE gives STATUS = 0x2132. -/
theorem test_refused : statusWord (runCmd .configure faulted hz48 0) = 0x2132#64 := by decide +kernel

/-! ### The units, from the examples of their rules -/

/-- R141. -/
theorem test_bqProcess :
    bqProcess ⟨⟨0x3FE0000000000000, 0x3FD0000000000000, 0x3FC0000000000000, 0xBFE0000000000000, 0x3FD0000000000000⟩,
      Lit.zero, Lit.zero⟩ Lit.one = (Lit.half, Lit.half, Lit.zero) := by decide +kernel
/-- R182. -/
theorem test_apProcess : apProcess Lit.half Lit.zero Lit.one = (Lit.half, 0x3FE8000000000000#64) := by decide +kernel
/-- R233: HLIM(2.0) = 1.8807970779778824. -/
theorem test_hlim : hlim .correctlyRounded Lit.two = 0x3FFE17BEAD453CE5#64 := by decide +kernel
/-- R295: the clamped field step from zero to 1.0 gives 0.058729158517706964. -/
theorem test_jaRef : (jaRef .correctlyRounded Params.t0Ja Lit.one hz48 Lit.zero Lit.zero Lit.one).mn =
    0x3FAE11BF8E4F6FFC#64 := by decide +kernel

/-! ### Witnesses: the hypotheses of the statements can be met -/

theorem witness_RoundTripBytes : (Instr.rdReg 0xFFF).wellFormed = true := by decide
theorem witness_WordSpellsRow : (Instr.setProfile .f2).wellFormed = true := by decide

/-- A step that takes a `CMD` write. -/
def taking (s : State) (i : Instr) : State := { s with pending := [cmdEvent i] }

theorem witness_StepRunsCommand : ∃ lanes rest, (taking cfg .process).pending = .write 0x00 lanes :: rest ∧
    decodeBytes lanes = .ok .process := ⟨_, _, rfl, by decide⟩
theorem witness_IllegalWordStep : ∃ (s s' : State) (w : CmdWord) (rest : List HostEvent) (e : Illegal),
    s.pending = .write 0x00 (toLanes 4 w.toNat) :: rest ∧ decode w = .error e ∧ s.fault = none ∧
    s'.pending = .write 0x00 (toLanes 4 w.toNat) :: rest ∧ s'.fault.isSome = true :=
  ⟨{ rst with pending := [.write 0x00 (toLanes 4 0x18000000)] },
    { faulted with pending := [.write 0x00 (toLanes 4 0x18000000)] }, 0x18000000#32, [], .unassignedOpcode,
    by decide, by decide, rfl, by decide, rfl⟩
theorem witness_AdmittedAccessesComplete : ∃ s u v w : State, s.pending = [] ∧
    u.pending = .write 0x20 [0, 0, 0, 0, 0, 0, 0, 0] :: [] ∧ v.pending = .write 0x21 [0, 0, 0, 0, 0, 0, 0, 0] :: [] ∧
    w.pending = .read 0x00 8 :: [] :=
  ⟨rst, { rst with pending := _ }, { rst with pending := _ }, { rst with pending := _ }, rfl, rfl, rfl, rfl⟩
theorem witness_WindowWrites : ∃ s u v w : State, ∃ l m : List Byte, s.pending = .write 0x08 l :: [] ∧
    u.pending = .write 0x10 l :: [] ∧ v.pending = .write 0x20 l :: [] ∧ l.length = 8 ∧
    w.pending = .write 0x04 m :: [] ∧ m.length = 4 :=
  ⟨{ rst with pending := _ }, { rst with pending := _ }, { rst with pending := _ }, { rst with pending := _ },
    [1, 2, 3, 4, 5, 6, 7, 8], [1, 2, 3, 4], rfl, rfl, rfl, rfl, rfl, rfl⟩
theorem witness_WindowReads : ∃ s u v : State, s.pending = .read 0x00 4 :: [] ∧ u.pending = .read 0x04 4 :: [] ∧
    v.pending = .read 0x20 8 :: [] :=
  ⟨{ rst with pending := _ }, { rst with pending := _ }, { rst with pending := _ }, rfl, rfl, rfl⟩
theorem witness_HardwareReset : ∃ s : State, s.pending = .resetPulse :: [] ∧ s.fault.isSome = true :=
  ⟨{ faulted with pending := _ }, rfl, rfl⟩
theorem witness_CountRegistersConstant : ∃ t, step (taking cfg .process) = .next t :=
  next_of_isNext (by decide +kernel)
theorem witness_RegisterMapDomain : rst.shapeOk = true ∧ cfg.shapeOk = true := by decide +kernel
theorem witness_RegisterMapValues : cfg.shapeOk = true ∧ (∃ b, cfg.eqb[9]? = some b) ∧
    ∃ s : State, s.shapeOk = true ∧ ∃ d, s.disp[0]? = some d :=
  ⟨by decide +kernel, Option.isSome_iff_exists.mp (by decide +kernel), State.resetWith { Params.t0 with nDisp := 1 },
    by decide +kernel, Option.isSome_iff_exists.mp (by decide +kernel)⟩
theorem witness_NopCompletes : ∃ t u, exec .nop faulted = .next t ∧ exec .nop (State.resetWith Params.t0) = .next u :=
  ⟨_, _, rfl, rfl⟩
theorem witness_ResetZeroesSignalState : rst.fault = none ∧ mid.fault = none ∧ mid.blockState = .ready := by
  decide +kernel
theorem witness_RdRegCompletes : (∃ v, regRead faulted 0x000 = some v) ∧ ∃ v, regRead cfg 0x60F = some v :=
  ⟨⟨_, rfl⟩, ⟨_, rfl⟩⟩
theorem witness_RdRegUnmapped : regRead cfg 0x107 = none ∧ cfg.fault = none ∧ regRead faulted 0x610 = none ∧
    faulted.fault.isSome = true := by decide +kernel

/-- T0 at 48 kHz, waiting for CONFIGURE. -/
def rst48 : State := { rst with op0 := hz48 }

theorem witness_ConfigureCompletes : ∃ (r : RateSet) (p : ProfileSet), rst48.fault = none ∧ rst48.shapeOk = true ∧
    F64.isFinite rst48.op0 = true ∧ F64.lt Lit.zero rst48.op0 = true ∧
    recomputeFull rst48.par rst48.op0 rst48.profile rst48.formula = some (r, p) := by
  have h : (recomputeFull rst48.par rst48.op0 rst48.profile rst48.formula).isSome = true := by decide +kernel
  obtain ⟨⟨r, p⟩, hr⟩ := Option.isSome_iff_exists.mp h
  exact ⟨r, p, by decide, by decide +kernel, by decide, by decide +kernel, hr⟩
theorem witness_ConfigureFaults : rst.fault = none ∧ F64.le rst.op0 Lit.zero = true ∧
    F64.isFinite 0x7FF8000000000000#64 = false ∧ F64.isFinite Config.dcbF = true ∧
    F64.lt Lit.zero Config.dcbF = true ∧ recomputeFull rst.par Config.dcbF rst.profile rst.formula = none := by
  decide +kernel
theorem witness_ConfigureTenHertzFails : rst.fault = none ∧ F64.isFinite Lit.ten = true ∧
    F64.lt Lit.zero Lit.ten = true ∧ F64.le Lit.ten Lit.ten = true := by decide +kernel
/-- The latched case, and the unchanged case in state Ready with the bias at its upper end. -/
theorem witness_SetProfileStoresSettings : rst.fault = none ∧ F64.isFinite Lit.half = true ∧
    rst.blockState = .uninitialized ∧ cfg.fault = none ∧ cfg.blockState = .ready ∧
    profileOf cfg.par (clampedBias Lit.one) = cfg.profile ∧ Formula.f1 = cfg.formula ∧ F64.eq Lit.one cfg.ingain = true := by
  decide +kernel
theorem witness_SetProfileRecomputes : ∃ q, cfg.fault = none ∧ cfg.shapeOk = true ∧ cfg.blockState = .ready ∧
    F64.isFinite Lit.half = true ∧ profileOf cfg.par (clampedBias Lit.half) ≠ cfg.profile ∧
    recomputeProfile cfg.par cfg.fs (profileOf cfg.par (clampedBias Lit.half)) .f2 = some q := by
  have h : (recomputeProfile cfg.par cfg.fs (profileOf cfg.par (clampedBias Lit.half)) .f2).isSome = true := by decide +kernel
  obtain ⟨q, hq⟩ := Option.isSome_iff_exists.mp h
  exact ⟨q, by decide +kernel, by decide +kernel, by decide +kernel, by decide, by decide +kernel, hq⟩
/-- A Ready state whose rate no profile-dependent design accepts meets the hypotheses of the second clause. -/
theorem witness_SetProfileFaults : cfg.fault = none ∧ F64.isFinite 0x7FF0000000000000#64 = false ∧
    ({ cfg with fs := Lit.ten } : State).blockState = .ready ∧
    profileOf cfg.par (clampedBias Lit.half) ≠ cfg.profile ∧
    recomputeProfile cfg.par Lit.ten (profileOf cfg.par (clampedBias Lit.half)) .f1 = none := by decide +kernel
theorem witness_BiasClampAndThreshold : F64.isFinite Lit.negOne = true ∧ F64.lt Lit.negOne Lit.zero = true ∧
    F64.isFinite Lit.half = true ∧ F64.lt Lit.zero Lit.half = true ∧ F64.lt Lit.half Lit.one = true ∧
    F64.le Lit.one Lit.one = true ∧ F64.le 0x3FE7AE147AE147AE#64 0x3FE7AE147AE147AE#64 = true := by decide +kernel
theorem witness_ProcessCompletes : mid.fault = none ∧ mid.blockState = .ready ∧ mid.profile = .A ∧
    ({ mid with profile := .B } : State).profile = .B := by decide +kernel
/-- The bypass at a zero fraction, and the allpass at the fraction of 48 kHz. -/
theorem witness_Process2Completes : mid.fault = none ∧ mid.blockState = .ready ∧ Memory.wf mid.mem = true ∧
    F64.lt mid.azFrac Config.thiranMinFrac = true ∧ cfg.fault = none ∧ cfg.blockState = .ready ∧
    Memory.wf cfg.mem = true ∧ F64.lt cfg.azFrac Config.thiranMinFrac = false := by decide +kernel
theorem witness_ProcessUnconfigured : rst.fault = none ∧ rst.blockState = .uninitialized := by decide
theorem witness_PipelineFinite : inUnit Lit.one = true ∧ inUnit Lit.zero = true ∧ inUnit mid.fadeGain = true := by
  decide +kernel
theorem witness_FirstSampleAfterReset : mid.fault = none ∧ mid.blockState = .ready ∧ ∃ t u,
    exec .reset mid = .next t ∧ exec .process { t with op0 := Lit.one } = .next u :=
  ⟨by decide +kernel, by decide +kernel, _, _, rfl, rfl⟩

/-- The invariant of R47 holds in `cfg` and `mid`. -/
theorem cfg_inv : cfg.Inv :=
  ⟨by decide +kernel, by decide +kernel, by decide +kernel, by decide +kernel, by decide +kernel⟩
theorem mid_inv : mid.Inv :=
  ⟨by decide +kernel, by decide +kernel, by decide +kernel, by decide +kernel, by decide +kernel⟩

/-- JA_ZERO answers zeros (R296). -/
theorem zero_solver {c : SolverChoice} (h : c = .zero) (L : NumLibChoice) (P : JaParams) (ms fs hp mp H : Word) :
    F64.isZero (jaSolve c L P ms fs hp mp H).hn = true ∧ F64.isZero (jaSolve c L P ms fs hp mp H).mn = true ∧
    F64.isZero (jaSolve c L P ms fs hp mp H).out = true := by
  subst h
  exact ⟨rfl, rfl, rfl⟩

/-- `cfg` with a zero sample waiting. -/
def quiet : State := { cfg with op0 := Lit.zero }

theorem witness_SilenceInvariance : quiet.fault = none ∧ quiet.blockState = .ready ∧ quiet.Inv ∧ quiet.Silent ∧
    F64.isZero quiet.op0 = true ∧ F64.isZero quiet.tuning.dcBias = true ∧
    ((∀ i, F64.isZero (ringRead quiet.mem i) = true) ∧ F64.isZero quiet.azZ = true ∧
      ∃ u, exec .process2 quiet = .next u) ∧
    (∀ H, F64.isZero H = true →
      let r := jaSolve quiet.par.solver quiet.par.numlib (quiet.par.ja quiet.formula) (effectiveMs quiet) quiet.fs
        quiet.hystH quiet.hystM H
      F64.isZero r.hn = true ∧ F64.isZero r.mn = true ∧ F64.isZero r.out = true) ∧
    ∃ t, exec .process quiet = .next t := by
  have hs : quiet.par.solver = .zero := by decide +kernel
  refine ⟨?_, ?_, ⟨?_, ?_, ?_, ?_, ?_⟩, ⟨?_, ?_, ?_, ?_, ?_, ?_, ?_, ?_, ?_⟩, ?_, ?_,
    ⟨?_, ?_, _, rfl⟩, fun H _ => zero_solver hs _ _ _ _ _ _ H, _, rfl⟩
  all_goals decide +kernel
theorem witness_CalibrationCommands : rst.fault = none ∧ F64.isFinite Lit.half = true ∧
    F64.isFinite 0x7FF0000000000000#64 = false := by decide
theorem witness_FaultPendingBehaviour : faulted.fault.isSome = true ∧ Instr.process ≠ .nop := by decide
theorem witness_FaultsArePrecise : ∃ t, exec .process rst = .next t ∧ t.ack = .fault := ⟨_, rfl, by decide +kernel⟩
theorem witness_RecoveredEventsRaiseNoFault : mid.fault = none ∧ mid.blockState = .ready ∧
    ∃ t, exec .process mid = .next t := ⟨by decide +kernel, by decide +kernel, _, rfl⟩
theorem witness_FaultIsSticky : (∃ t, step (taking faulted .reset) = .next t) ∧ faulted.fault = some .badRate ∧
    (taking faulted .reset).pending.head? ≠ some .resetPulse ∧
    ∃ s t : State, step s = .next t ∧ s.pending.head? = some .resetPulse :=
  ⟨next_of_isNext (by decide +kernel), rfl, by decide, { faulted with pending := [.resetPulse] }, _, rfl, rfl⟩
theorem witness_FaultOutput : (∃ s t : State, step s = .next t ∧ faultOut s = true ∧ faultOut t = false) ∧
    ∃ t, step (taking rst .process) = .next t ∧ faultOut (taking rst .process) = false ∧ faultOut t = true ∧
      (taking rst .process).takesWrite 0x00 ∧ t.ack = .fault :=
  ⟨⟨{ faulted with pending := [.resetPulse] }, _, rfl, rfl, rfl⟩,
    _, rfl, rfl, by decide +kernel, ⟨_, rfl⟩, by decide +kernel⟩
theorem witness_ReadyState : (∃ t, step (taking rst48 .configure) = .next t ∧
      (taking rst48 .configure).blockState = .uninitialized ∧ t.blockState = .ready) ∧
    (∃ s t : State, step s = .next t ∧ s.blockState = .ready ∧ t.blockState = .uninitialized) ∧
    (∃ t, exec .configure rst48 = .next t ∧ t.ack = .ok) ∧ ∃ t, exec .process rst = .next t ∧ t.ack ≠ .ok :=
  ⟨⟨_, rfl, rfl, by decide +kernel⟩, ⟨{ cfg with pending := [.resetPulse] }, _, rfl, by decide +kernel, rfl⟩,
    ⟨_, rfl, by decide +kernel⟩, _, rfl, by decide +kernel⟩
theorem witness_OperandAndResultRegisters : (∃ s t : State, step s = .next t ∧ t.op0 ≠ s.op0) ∧
    (∃ s t : State, step s = .next t ∧ t.op1 ≠ s.op1) ∧ ∃ t, step (taking rst (.rdReg 0)) = .next t ∧ t.res ≠ rst.res :=
  ⟨⟨{ rst with pending := [wordWrite .op0 Lit.one] }, _, rfl, by decide +kernel⟩,
    ⟨{ rst with pending := [wordWrite .op1 Lit.one] }, _, rfl, by decide +kernel⟩, _, rfl, by decide +kernel⟩
theorem witness_SettingsWriters : ∃ t, step (taking rst48 .configure) = .next t ∧
    (taking rst48 .configure).pending.head? ≠ some .resetPulse ∧ t.fs ≠ rst48.fs :=
  ⟨_, rfl, by decide, by decide +kernel⟩
theorem witness_CoefficientWriters : (∃ t, step (taking rst48 .configure) = .next t ∧
      (taking rst48 .configure).pending.head? ≠ some .resetPulse ∧ t.fadeInc ≠ rst48.fadeInc ∧
      t.shieldNorm ≠ rst48.shieldNorm) ∧
    ∃ s t : State, step (taking s .calPower) = .next t ∧ t.tuning ≠ s.tuning :=
  ⟨⟨_, rfl, by decide, by decide +kernel, by decide +kernel⟩, rst48, _, rfl, by decide +kernel⟩
theorem witness_SignalStateWriters : mid.shapeOk = true ∧ ∃ t, step (taking mid .process2) = .next t ∧
    (taking mid .process2).pending.head? ≠ some .resetPulse ∧ t.azWidx ≠ mid.azWidx ∧ t.fadeGain ≠ mid.fadeGain :=
  ⟨by decide +kernel, _, rfl, by decide, by decide +kernel, by decide +kernel⟩
theorem witness_UnusedOperands : (∃ t, exec .process cfg = .next t) ∧ ∃ t, exec (.rdReg 0x600) cfg = .next t :=
  ⟨⟨_, rfl⟩, next_of_isNext (by decide +kernel)⟩
theorem witness_StepKeepsInv : (taking mid .process2).Inv ∧ ∃ t, step (taking mid .process2) = .next t :=
  ⟨⟨by decide +kernel, by decide +kernel, by decide +kernel, by decide +kernel, by decide +kernel⟩, _, rfl⟩

theorem derived_taking {s : State} (h : s.Derived) (i : Instr) : (taking s i).Derived := fun hs => by
  obtain ⟨r, p, hq, hr, hp⟩ := h hs
  exact ⟨r, p, hq, ⟨hr.1, hr.2, hr.3, hr.4, hr.5, hr.6⟩,
    ⟨hp.1, hp.2, hp.3, hp.4, hp.5, hp.6, hp.7, hp.8, hp.9, hp.10⟩⟩

/-- The second half of R47(4) holds in a state that CONFIGURE left. -/
theorem cfg_derived : cfg.Derived := by
  have h : (recomputeFull cfg.par cfg.fs cfg.profile cfg.formula).any (fun q =>
      bankCoeffs cfg.eqa == q.1.eqa && bankCoeffs cfg.eqb == q.1.eqb && bankCoeffs cfg.dcb == q.1.dcb
        && cfg.blendAtt == q.1.blendAtt && cfg.blendRel == q.1.blendRel && cfg.fadeInc == q.1.fadeInc
        && bankCoeffs cfg.shield == q.2.shield && cfg.shieldNorm == q.2.shieldNorm
        && dispCoeffs cfg.disp == q.2.disp && cfg.azDelay == q.2.azimuth.delay && cfg.azInt == q.2.azimuth.int
        && cfg.azFrac == q.2.azimuth.frac && cfg.azCoeff == q.2.azimuth.coeff
        && cfg.tuning.dcBias == q.2.tuning.dcBias && cfg.tuning.outScale == q.2.tuning.outScale
        && cfg.tuning.msScale == q.2.tuning.msScale) = true := by decide +kernel
  obtain ⟨⟨r, p⟩, hq, hall⟩ := exists_of_any h
  simp only [Bool.and_eq_true, beq_iff_eq] at hall
  obtain ⟨⟨⟨⟨⟨⟨⟨⟨⟨⟨⟨⟨⟨⟨⟨h1, h2⟩, h3⟩, h4⟩, h5⟩, h6⟩, h7⟩, h8⟩, h9⟩, h10⟩, h11⟩, h12⟩, h13⟩, h14⟩, h15⟩, h16⟩ := hall
  exact fun _ => ⟨r, p, hq, ⟨h1, h2, h3, h4, h5, h6⟩, ⟨h7, h8, h9, h10, h11, h12, h13, h14, h15, h16⟩⟩
theorem witness_StepKeepsDerived : (taking cfg (.setProfile .f2)).Derived ∧ cfg.blockState = .ready ∧
    ∃ t, step (taking cfg (.setProfile .f2)) = .next t :=
  ⟨derived_taking cfg_derived _, by decide +kernel, next_of_isNext (by decide +kernel)⟩
theorem witness_FadeGainNeverFalls : (taking mid .process).Inv ∧ ∃ t, step (taking mid .process) = .next t :=
  ⟨⟨by decide +kernel, by decide +kernel, by decide +kernel, by decide +kernel, by decide +kernel⟩, _, rfl⟩
/-- A 0 dB bell and high shelf; a section at the least normal input, with products that overflow, and at a subnormal. -/
theorem witness_IdentitySection : (bqDesign .correctlyRounded (Params.flat 3) hz48).isSome = true ∧
    (bqDesign .correctlyRounded (Params.flat 4) hz48).isSome = true ∧
    ∃ (b : Biquad) (x y z : Word), b.co.b0 = Lit.one ∧ F64.eq b.co.b1 b.co.a1 = true ∧
    b.co.b2 = b.co.a2 ∧ b.z1 = Lit.zero ∧ b.z2 = Lit.zero ∧ F64.isFinite x = true ∧
    F64.le Config.ftzMin (F64.abs x) = true ∧ F64.isFinite (F64.mul b.co.b1 x) = true ∧
    F64.isFinite (F64.mul b.co.b2 x) = true ∧
    F64.isFinite y = true ∧ F64.le Config.ftzMin (F64.abs y) = true ∧ F64.isFinite (F64.mul b.co.b1 y) = false ∧
    F64.isFinite z = true ∧ F64.lt (F64.abs z) Config.ftzMin = true ∧ b.co.finite = true :=
  ⟨by decide +kernel, by decide +kernel,
    ⟨⟨Lit.one, Lit.negTwo, Lit.half, Lit.negTwo, Lit.half⟩, Lit.zero, Lit.zero⟩, Config.ftzMin, 0x7FEFFFFFFFFFFFFF#64,
    0x000FFFFFFFFFFFFF#64, by decide +kernel⟩
theorem witness_SaturatorOdd : F64.isZero Params.t0Tuning.dcBias = true ∧ F64.isFinite Lit.one = true ∧
    F64.isNaN (satStep Params.t0 Params.t0Tuning Lit.zero Lit.one).1 = false := by decide +kernel
theorem witness_SaturatorShapingOff : F64.le Lit.zero Lit.zero = true ∧ F64.le Lit.half Lit.half = true ∧
    Lit.half = F64.max Config.envFloor Lit.half := by decide +kernel
theorem witness_LimiterBounds : F64.le (F64.abs Config.hlimT) Config.hlimT = true ∧ F64.isNaN F64.nan = true ∧
    F64.isNaN 0x7FF0000000000000#64 = false := by decide +kernel
theorem witness_SolverProperties : finitePositive Lit.one = true ∧ finitePositive hz48 = true ∧
    finitePositive Params.t0Ja.a = true ∧ F64.isZero 0x8000000000000000#64 = true ∧
    F64.isFinite (jaSolve .ref .correctlyRounded Params.t0Ja Lit.one hz48 Lit.zero Lit.zero Lit.one).mn = true ∧
    F64.isFinite (jaSolve .ref .correctlyRounded Params.t0Ja Lit.one hz48 Lit.zero Lit.zero Lit.one).out = true ∧
    F64.le (F64.abs (jaSolve .ref .correctlyRounded Params.t0Ja Lit.one hz48 Lit.zero Lit.zero Lit.one).mn)
      (softStart Lit.one) = true := by
  decide +kernel
/-- A port that answers finite values, one with an infinite and one with a NaN output at a finite state, and one with a
field that is not finite. -/
theorem witness_HysteresisGuard : ∃ a b c d : JaResult,
    F64.isFinite a.hn = true ∧ F64.isFinite a.mn = true ∧ F64.isFinite a.out = true ∧
    F64.isFinite b.hn = true ∧ F64.isFinite b.mn = true ∧ F64.isInf b.out = true ∧ F64.isFinite b.out = false ∧
    F64.isFinite c.hn = true ∧ F64.isFinite c.mn = true ∧ F64.isNaN c.out = true ∧ F64.isFinite c.out = false ∧
    F64.isFinite d.hn = false :=
  ⟨JaResult.zero, ⟨Lit.one, Lit.one, 0xFFF0000000000000#64⟩, ⟨Lit.one, Lit.one, F64.nan⟩,
    ⟨0x7FF0000000000000#64, Lit.one, Lit.one⟩, by decide⟩
theorem witness_DelayLineImpulse : ∃ s : State, s.mem = [] ∧ s.azWidx = 0 ∧ F64.isZero s.azFrac = true ∧ s.azInt = 15 :=
  ⟨{ rst with azInt := 15 }, rfl, rfl, by decide +kernel, rfl⟩
theorem witness_AzimuthDesignRange : ∃ z, azDesign .B hz48 = some z := by
  have h : (azDesign .B hz48).isSome = true := by decide +kernel
  exact Option.isSome_iff_exists.mp h
/-- A tie between two patterns; a remainder of one third; and the least value that overflows. -/
theorem witness_RoundsToNearestEven : Nat.log2 3 < 65536 ∧ (0 : Nat) < 1 ∧ F64.roundMag 3 1 false < F64.infPat ∧
    (1 : Nat) < F64.infPat ∧ (1 : Nat) ≠ F64.roundMag 3 1 false ∧
    (1 : Nat) < 3 ∧ (1 ≠ 0 → 0 < 2) ∧ F64.roundMag 6 2 (decide (1 ≠ 0)) < F64.infPat ∧
    Nat.log2 ((2 ^ 54 - 1) * 2 ^ 2044) < 65536 ∧ F64.roundMag ((2 ^ 54 - 1) * 2 ^ 2044) 0 false = F64.infPat := by
  decide +kernel
theorem witness_InstancesShareNothing : ∃ z, System.stepAt [⟨0, rst⟩, ⟨0x28, cfg⟩] 1 = some z :=
  Option.isSome_iff_exists.mp (by decide +kernel)

end Sys2Proof.Tests
end

/-! SUPPORT. What the one rounding of the arithmetic (spec/00_scope.md R12) returns. With the shift `d` and the quotient
`q = n / 2^d` the exact value lies in `[q * 2^d, (q + 1) * 2^d)`. No finite number lies strictly between the two ends
(`F64.mag_outside`), and the result is the nearer end, the even one halfway (`F64.roundSticky_nearest`). -/

namespace Sys2Proof.Machine

/-! ### The magnitudes of the finite patterns -/

theorem F64.pack_false (p : Nat) : F64.pack false p = BitVec.ofNat 64 p := rfl

/-- A finite number is a significand of at most 53 bits times a power of two. -/
theorem F64.exists_mag_eq {p : Nat} (hp : p < F64.infPat) :
    ∃ s e, s < 2 ^ 53 ∧ e ≤ 2045 ∧ F64.mag (F64.pack false p) = s * 2 ^ e := by
  unfold F64.infPat at hp
  rw [F64.mag_of_pat p false (by omega)]
  by_cases h : p / 2 ^ 52 = 0
  · exact ⟨p, 0, by omega, by omega, by rw [if_pos h, Nat.pow_zero, Nat.mul_one]⟩
  · exact ⟨p % 2 ^ 52 + 2 ^ 52, p / 2 ^ 52 - 1, by omega, by omega, if_neg h⟩

theorem F64.mag_lt {p : Nat} (hp : p < F64.infPat) : F64.mag (F64.pack false p) < 2 ^ 2 ^ 16 := by
  obtain ⟨s, e, hs, he, hm⟩ := F64.exists_mag_eq hp
  calc F64.mag (F64.pack false p) = s * 2 ^ e := hm
    _ < 2 ^ 53 * 2 ^ e := Nat.mul_lt_mul_of_pos_right hs (Nat.two_pow_pos e)
    _ = 2 ^ (53 + e) := (Nat.pow_add 2 53 e).symm
    _ ≤ 2 ^ 2 ^ 16 := Nat.pow_le_pow_right (by decide) (by omega)

/-- Two finite patterns of one magnitude are the same: each is what the magnitude rounds to. -/
theorem F64.pat_eq_of_mag_eq {p q : Nat} (hp : p < F64.infPat) (hq : q < F64.infPat)
    (h : F64.mag (F64.pack false p) = F64.mag (F64.pack false q)) : p = q := by
  have hep := F64.roundMag_exact 0 false hp (by rw [Nat.pow_zero, Nat.mul_one]; exact F64.mag_lt hp)
  have heq := F64.roundMag_exact 0 false hq (by rw [Nat.pow_zero, Nat.mul_one]; exact F64.mag_lt hq)
  rw [← hep, h, heq]

/-- The pattern that the rounding puts together from a shift `e` above the unit and a rounded quotient `a`, which may
have carried into a 54th bit. -/
theorem F64.mag_pack_shift {e a : Nat} (ha : a ≤ 2 ^ 53) (hn : 0 < e → 2 ^ 52 ≤ a)
    (hp : e * 2 ^ 52 + a < F64.infPat) : F64.mag (F64.pack false (e * 2 ^ 52 + a)) = a * 2 ^ e := by
  unfold F64.infPat at hp
  rw [F64.mag_of_pat _ false (by omega)]
  rcases Nat.lt_or_ge a (2 ^ 52) with hsub | hnorm
  · have he : e = 0 := by omega
    subst he
    rw [if_pos (by omega)]
    omega
  · rw [if_neg (by omega)]
    rcases Nat.lt_or_ge a (2 ^ 53) with hlt | hge
    · rw [show (e * 2 ^ 52 + a) / 2 ^ 52 - 1 = e by omega, show (e * 2 ^ 52 + a) % 2 ^ 52 + 2 ^ 52 = a by omega]
    · rw [show (e * 2 ^ 52 + a) / 2 ^ 52 - 1 = e + 1 by omega,
        show (e * 2 ^ 52 + a) % 2 ^ 52 + 2 ^ 52 = 2 ^ 52 by omega,
        show a = 2 ^ 52 * 2 by omega, Nat.pow_succ 2 e, Nat.mul_comm (2 ^ e), Nat.mul_assoc]

/-! ### The rounding at one place, with something left over -/

/-- The quotient by `2^d`, rounded to nearest, ties to even, for a value above `n` when `st` is set. -/
def F64.roundSticky (n d : Nat) (st : Bool) : Nat :=
  if 2 ^ d < 2 * (n % 2 ^ d) ∨ (2 * (n % 2 ^ d) = 2 ^ d ∧ (st = true ∨ n / 2 ^ d % 2 = 1)) then n / 2 ^ d + 1
  else n / 2 ^ d

theorem F64.roundMag_eq_roundSticky (n j : Nat) (st : Bool) : F64.roundMag n j st =
    Min.min F64.infPat ((F64.roundShift n j - j) * 2 ^ 52 + F64.roundSticky n (F64.roundShift n j) st) := by
  unfold F64.roundMag F64.roundSticky F64.roundShift
  simp only [Nat.shiftRight_eq_div_pow, Bool.or_eq_true, Bool.and_eq_true, decide_eq_true_eq, beq_iff_eq]

theorem F64.roundSticky_eq_or (n d : Nat) (st : Bool) :
    F64.roundSticky n d st = n / 2 ^ d ∨ F64.roundSticky n d st = n / 2 ^ d + 1 := by
  unfold F64.roundSticky
  split
  · exact .inr rfl
  · exact .inl rfl

/-- An odd quotient goes up from the half on, whatever is left over. -/
theorem F64.roundSticky_eq_succ_iff {n d : Nat} (st : Bool) (hodd : n / 2 ^ d % 2 = 1) :
    F64.roundSticky n d st = n / 2 ^ d + 1 ↔ 2 ^ d ≤ 2 * (n % 2 ^ d) := by
  unfold F64.roundSticky
  split <;> omega

/-- Which way the quotient is rounded, by the rest of the exact value: `(n % 2^d) * m + k` of `2^d * m` parts. -/
theorem F64.roundSticky_cases {n d m k : Nat} (hk : k < m) (hd : k ≠ 0 → 0 < d) :
    (F64.roundSticky n d (decide (k ≠ 0)) = n / 2 ^ d ∧ 2 * (n % 2 ^ d * m + k) ≤ 2 ^ d * m ∨
      F64.roundSticky n d (decide (k ≠ 0)) = n / 2 ^ d + 1 ∧ 2 ^ d * m ≤ 2 * (n % 2 ^ d * m + k)) ∧
    (2 * (n % 2 ^ d * m + k) = 2 ^ d * m → F64.roundSticky n d (decide (k ≠ 0)) % 2 = 0) := by
  unfold F64.roundSticky
  simp only [decide_eq_true_eq]
  rcases Nat.lt_trichotomy (2 * (n % 2 ^ d)) (2 ^ d) with hlt | heq | hgt
  · have hbelow : 2 * (n % 2 ^ d * m + k) < 2 ^ d * m := by
      by_cases hz : k = 0
      · have := Nat.mul_lt_mul_of_pos_right hlt (show 0 < m by omega)
        rw [Nat.mul_assoc] at this
        omega
      · have heven : 2 ^ d = 2 * 2 ^ (d - 1) := by
          rw [← Nat.pow_succ', Nat.succ_eq_add_one, Nat.sub_add_cancel (hd hz)]
        have := Nat.mul_le_mul_right m (show 2 * (n % 2 ^ d + 1) ≤ 2 ^ d by omega)
        rw [Nat.mul_assoc, Nat.add_mul] at this
        omega
    rw [if_neg (by omega)]
    exact ⟨.inl ⟨rfl, Nat.le_of_lt hbelow⟩, fun h => absurd h (Nat.ne_of_lt hbelow)⟩
  · have hhalf : 2 * (n % 2 ^ d * m) = 2 ^ d * m := by rw [← Nat.mul_assoc, heq]
    split <;> omega
  · have habove : 2 ^ d * m < 2 * (n % 2 ^ d * m) := by
      rw [← Nat.mul_assoc]
      exact Nat.mul_lt_mul_of_pos_right hgt (by omega)
    rw [if_pos (.inl hgt)]
    omega

/-- The exact value lies between the two ends of its place. -/
theorem exact_mem_place {n m k : Nat} (d : Nat) (hk : k < m) :
    n / 2 ^ d * 2 ^ d * m ≤ n * m + k ∧ n * m + k ≤ (n / 2 ^ d + 1) * 2 ^ d * m := by
  have hlo := Nat.mul_le_mul_right m (Nat.div_mul_le_self n (2 ^ d))
  have hhi := Nat.mul_le_mul_right m (Nat.lt_div_mul_add (a := n) (Nat.two_pow_pos d))
  rw [← Nat.succ_mul, Nat.succ_mul n] at hhi
  exact ⟨by omega, Nat.le_trans (by omega) hhi⟩

/-- The rounded quotient is the end nearer to the exact value, and halfway the even one. -/
theorem F64.roundSticky_nearest {n d m k : Nat} (hk : k < m) (hd : k ≠ 0 → 0 < d) :
    let a := F64.roundSticky n d (decide (k ≠ 0))
    let lo := n / 2 ^ d * 2 ^ d * m
    let hi := (n / 2 ^ d + 1) * 2 ^ d * m
    (a * 2 ^ d * m = lo ∧ 2 * (n * m + k) ≤ lo + hi ∨ a * 2 ^ d * m = hi ∧ lo + hi ≤ 2 * (n * m + k)) ∧
    (2 * (n * m + k) = lo + hi → a % 2 = 0) := by
  intro a lo hi
  have hx : n * m + k = lo + (n % 2 ^ d * m + k) := by
    rw [← Nat.add_assoc, ← Nat.add_mul, Nat.div_add_mod']
  have hhi : hi = lo + 2 ^ d * m := by rw [← Nat.add_mul, ← Nat.succ_mul]
  obtain ⟨hend, htie⟩ := F64.roundSticky_cases (n := n) hk hd
  refine ⟨?_, fun h => htie (by omega)⟩
  rcases hend with ⟨ha, hle⟩ | ⟨ha, hle⟩
  · exact .inl ⟨congrArg (· * 2 ^ d * m) ha, by omega⟩
  · exact .inr ⟨congrArg (· * 2 ^ d * m) ha, by omega⟩

/-! ### No finite number between the two ends -/

theorem F64.unit_le_roundShift (n j : Nat) : j ≤ F64.roundShift n j := Nat.le_max_left _ _

/-- A number on a coarser grid than the place is a multiple of the place; one on a finer grid is below the lower end,
which has 53 bits. -/
theorem F64.mag_outside {n j q : Nat} (hn : n < 2 ^ 2 ^ 16) (hq : q < F64.infPat) :
    F64.mag (F64.pack false q) * 2 ^ j ≤ n / 2 ^ F64.roundShift n j * 2 ^ F64.roundShift n j ∨
    (n / 2 ^ F64.roundShift n j + 1) * 2 ^ F64.roundShift n j ≤ F64.mag (F64.pack false q) * 2 ^ j := by
  have hj := F64.unit_le_roundShift n j
  have hfull := F64.le_div_roundShift (n := n) (j := j) hn
  generalize F64.roundShift n j = d at hj hfull ⊢
  obtain ⟨s, e, hs, -, hm⟩ := F64.exists_mag_eq hq
  rw [hm, Nat.mul_assoc, ← Nat.pow_add]
  rcases Nat.lt_or_ge (e + j) d with hfine | hcoarse
  · left
    calc s * 2 ^ (e + j) ≤ 2 ^ 53 * 2 ^ (e + j) := Nat.mul_le_mul_right _ (Nat.le_of_lt hs)
      _ = 2 ^ 52 * 2 ^ (e + j + 1) := by rw [Nat.pow_succ 2 52, Nat.pow_succ 2 (e + j), Nat.mul_assoc, Nat.mul_comm 2]
      _ ≤ 2 ^ 52 * 2 ^ d := Nat.mul_le_mul_left _ (Nat.pow_le_pow_right (by decide) hfine)
      _ ≤ n / 2 ^ d * 2 ^ d := Nat.mul_le_mul_right _ (hfull (by omega))
  · rw [← Nat.sub_add_cancel hcoarse, Nat.pow_add, ← Nat.mul_assoc]
    rcases Nat.lt_or_ge (n / 2 ^ d) (s * 2 ^ (e + j - d)) with habove | hbelow
    · exact .inr (Nat.mul_le_mul_right _ habove)
    · exact .inl (Nat.mul_le_mul_right _ hbelow)

/-- Of the numbers outside an interval the nearer end is the nearest to a point of it, and another one that is as near
means that the point is halfway. -/
theorem nearer_end_nearest {x lo hi r v : Nat} (hlo : lo ≤ x) (hhi : x ≤ hi)
    (hr : r = lo ∧ 2 * x ≤ lo + hi ∨ r = hi ∧ lo + hi ≤ 2 * x) (hv : v ≤ lo ∨ hi ≤ v) (hne : v ≠ r) :
    ((r : Int) - x).natAbs ≤ ((v : Int) - x).natAbs ∧
    (((r : Int) - x).natAbs = ((v : Int) - x).natAbs → 2 * x = lo + hi) := by
  omega

/-! ### The result -/

/-- The rounded quotient keeps within 53 bits or carries to `2^53`, and has 53 bits above the unit shift. -/
theorem F64.roundSticky_bounds {n : Nat} (j : Nat) (st : Bool) (hn : n < 2 ^ 2 ^ 16) :
    F64.roundSticky n (F64.roundShift n j) st ≤ 2 ^ 53 ∧
    (0 < F64.roundShift n j - j → 2 ^ 52 ≤ F64.roundSticky n (F64.roundShift n j) st) := by
  have hlt := F64.div_roundShift_lt j hn
  have hfull := F64.le_div_roundShift (n := n) (j := j) hn
  rcases F64.roundSticky_eq_or n (F64.roundShift n j) st with h | h <;> omega

/-- A finite result is the rounded quotient at its place. -/
theorem F64.mag_roundMag {n j : Nat} {st : Bool} (hn : n < 2 ^ 2 ^ 16) (hfin : F64.roundMag n j st < F64.infPat) :
    F64.mag (F64.pack false (F64.roundMag n j st)) * 2 ^ j =
      F64.roundSticky n (F64.roundShift n j) st * 2 ^ F64.roundShift n j := by
  obtain ⟨hle, hge⟩ := F64.roundSticky_bounds j st hn
  rw [F64.roundMag_eq_roundSticky] at hfin ⊢
  have hpat := (min_lt_iff.mp hfin).resolve_left (Nat.lt_irrefl _)
  rw [min_eq_right (Nat.le_of_lt hpat), F64.mag_pack_shift hle hge hpat, Nat.mul_assoc, ← Nat.pow_add,
    Nat.sub_add_cancel (F64.unit_le_roundShift n j)]

theorem F64.roundMag_mod_two {n j : Nat} {st : Bool} (hfin : F64.roundMag n j st < F64.infPat) :
    F64.roundMag n j st % 2 = F64.roundSticky n (F64.roundShift n j) st % 2 := by
  rw [F64.roundMag_eq_roundSticky] at hfin ⊢
  omega

/-- The place of the largest finite number: there the rounding overflows exactly when the 53 bits are all set and the
rest is at least a half. -/
theorem F64.roundSticky_carry_iff {n d H : Nat} (st : Bool) (hq : n / 2 ^ d < 2 ^ 53) (hd : 2 ^ d = 2 * H) :
    2 ^ 53 ≤ F64.roundSticky n d st ↔ (2 ^ 54 - 1) * H ≤ n := by
  have hsplit := Nat.div_add_mod n (2 ^ d)
  have hmod := Nat.mod_lt n (Nat.two_pow_pos d)
  rcases Nat.lt_or_ge (n / 2 ^ d) (2 ^ 53 - 1) with hlow | htop
  · have hor := F64.roundSticky_eq_or n d st
    have := Nat.mul_le_mul_left (2 ^ d) (show n / 2 ^ d ≤ 2 ^ 53 - 2 by omega)
    omega
  · have hall : n / 2 ^ d = 2 ^ 53 - 1 := by omega
    have hup := F64.roundSticky_eq_succ_iff (n := n) (d := d) st (by omega)
    have hor := F64.roundSticky_eq_or n d st
    rw [hall] at hsplit hup hor
    omega

/-- The result is infinity from half a last place above the largest finite number on. -/
theorem F64.roundMag_eq_infPat_iff {n : Nat} (j : Nat) (st : Bool) (hn : n < 2 ^ 2 ^ 16) :
    F64.roundMag n j st = F64.infPat ↔ (2 ^ 54 - 1) * 2 ^ (2044 + j) ≤ n := by
  obtain ⟨hle, hge⟩ := F64.roundSticky_bounds j st hn
  have hj := F64.unit_le_roundShift n j
  have hlt := F64.div_roundShift_lt j hn
  have hfull := F64.le_div_roundShift (n := n) (j := j) hn
  rw [F64.roundMag_eq_roundSticky, min_eq_left_iff]
  have hinf : F64.infPat = 2047 * 2 ^ 52 := by decide
  rw [hinf]
  rcases Nat.lt_trichotomy (F64.roundShift n j) (2045 + j) with hbelow | hplace | habove
  · have hsmall : n < (2 ^ 54 - 1) * 2 ^ (2044 + j) :=
      calc n < 2 ^ 53 * 2 ^ F64.roundShift n j := (Nat.div_lt_iff_lt_mul (Nat.two_pow_pos _)).mp hlt
        _ ≤ (2 ^ 54 - 1) * 2 ^ (2044 + j) :=
          Nat.mul_le_mul (by decide) (Nat.pow_le_pow_right (by decide) (by omega))
    omega
  · have hhalf : 2 ^ F64.roundShift n j = 2 * 2 ^ (2044 + j) := by
      rw [hplace, ← Nat.pow_succ', show 2045 + j = (2044 + j).succ by omega]
    rw [← F64.roundSticky_carry_iff st hlt hhalf]
    omega
  · have hlarge : (2 ^ 54 - 1) * 2 ^ (2044 + j) ≤ n :=
      calc (2 ^ 54 - 1) * 2 ^ (2044 + j) ≤ 2 ^ 54 * 2 ^ (2044 + j) := Nat.mul_le_mul_right _ (by decide)
        _ = 2 ^ 52 * 2 ^ (2046 + j) := by
          rw [← Nat.pow_add, ← Nat.pow_add, show 54 + (2044 + j) = 52 + (2046 + j) by omega]
        _ ≤ 2 ^ 52 * 2 ^ F64.roundShift n j := Nat.mul_le_mul_left _ (Nat.pow_le_pow_right (by decide) (by omega))
        _ ≤ n := (Nat.le_div_iff_mul_le (Nat.two_pow_pos _)).mp (hfull (by omega))
    omega

/-- No finite pattern is nearer to the exact value than a finite result, and when one is as near the result is even. -/
theorem F64.roundMag_nearest {n j m k q : Nat} (hn : n < 2 ^ 2 ^ 16) (hk : k < m) (hj : k ≠ 0 → 0 < j)
    (hfin : F64.roundMag n j (decide (k ≠ 0)) < F64.infPat) (hq : q < F64.infPat)
    (hne : q ≠ F64.roundMag n j (decide (k ≠ 0))) :
    let x : Int := (n * m + k : Nat)
    let r : Int := (F64.mag (F64.pack false (F64.roundMag n j (decide (k ≠ 0)))) * 2 ^ j * m : Nat)
    let v : Int := (F64.mag (F64.pack false q) * 2 ^ j * m : Nat)
    (r - x).natAbs ≤ (v - x).natAbs ∧
      ((r - x).natAbs = (v - x).natAbs → F64.roundMag n j (decide (k ≠ 0)) % 2 = 0) := by
  intro x r v
  have hdist : F64.mag (F64.pack false q) * 2 ^ j * m ≠
      F64.mag (F64.pack false (F64.roundMag n j (decide (k ≠ 0)))) * 2 ^ j * m := fun h =>
    hne (F64.pat_eq_of_mag_eq hq hfin
      (Nat.eq_of_mul_eq_mul_right (Nat.two_pow_pos j) (Nat.eq_of_mul_eq_mul_right (Nat.zero_lt_of_lt hk) h)))
  have hout := (F64.mag_outside (j := j) hn hq).imp (Nat.mul_le_mul_right m) (Nat.mul_le_mul_right m)
  obtain ⟨hlo, hhi⟩ := exact_mem_place (n := n) (F64.roundShift n j) hk
  obtain ⟨hend, htie⟩ := F64.roundSticky_nearest (n := n) (d := F64.roundShift n j) hk
    (fun h => Nat.lt_of_lt_of_le (hj h) (F64.unit_le_roundShift n j))
  rw [← F64.mag_roundMag hn hfin] at hend
  rw [F64.roundMag_mod_two hfin]
  obtain ⟨hle, heq⟩ := nearer_end_nearest hlo hhi hend hout hdist
  exact ⟨hle, fun h => htie (heq h)⟩

/-- Settles O59: the result is the nearer end of an interval that no finite number divides, the even one halfway, and
infinity when that end would be past the largest finite number. -/
theorem roundsToNearestEven : Obligations.RoundsToNearestEven := by
  intro n j m k hlog hk hj
  have hn : n < 2 ^ 2 ^ 16 :=
    Nat.lt_of_lt_of_le Nat.lt_log2_self (Nat.pow_le_pow_right (by decide) (show n.log2 + 1 ≤ 2 ^ 16 by omega))
  refine ⟨F64.roundMag_eq_infPat_iff j _ hn, fun hfin q hq hne => ?_⟩
  rw [← F64.pack_false, ← F64.pack_false]
  exact F64.roundMag_nearest hn hk hj hfin hq hne

end Sys2Proof.Machine

/-! SUPPORT. What a command and a step can do, each said once: `Effect` lists what a command that raises no fault does
to the state (spec/47_commands.md R340 to R357), `exec_effect` says that a command does that or touches `FAULT` and
`ACK` alone, and `step_effect` carries both to a step. -/

namespace Sys2Proof.Machine

/-! ### The calibration commands (R350 to R357) -/

/-- The write of a calibration command into the tuning registers; none for the other commands. -/
def calPut : Instr → Option (Word → Tuning → Tuning)
  | .calSatA3 => some fun v t => { t with satA3 := v }
  | .calPower => some fun v t => { t with satPower := v }
  | .calLowScale => some fun v t => { t with lowScale := v }
  | .calBlendRatio => some fun v t => { t with blendRatio := v }
  | .calLowThresh => some fun v t => { t with lowThresh := v }
  | .calCurvePower => some fun v t => { t with curvePower := v }
  | .calKneeThresh => some fun v t => { t with kneeThresh := v }
  | .calKneeAmount => some fun v t => { t with kneeAmount := v }
  | .nop | .configure | .setProfile _ | .reset | .process | .process2 | .rdReg _ => none

theorem exec_of_calPut {i : Instr} {put : Word → Tuning → Tuning} (h : calPut i = some put) (s : State) :
    exec i s = .next (framed s (calibrate put)) := by
  cases i <;> cases h <;> rfl

/-- A finite value leaves a finite tuning finite. -/
theorem calPut_finite {i : Instr} {put : Word → Tuning → Tuning} (h : calPut i = some put) {v : Word} {t : Tuning}
    (hv : F64.isFinite v = true) (ht : Tuning.finite t = true) : Tuning.finite (put v t) = true := by
  simp only [Tuning.finite, Bool.and_eq_true] at ht
  cases i <;> cases h <;> simp only [Tuning.finite, ht, hv, Bool.and_self]

/-- The three tuning registers that no calibration command writes. -/
theorem calPut_keeps {i : Instr} {put : Word → Tuning → Tuning} (h : calPut i = some put) (v : Word) (t : Tuning) :
    (put v t).dcBias = t.dcBias ∧ (put v t).outScale = t.outScale ∧ (put v t).msScale = t.msScale := by
  cases i <;> cases h <;> exact ⟨rfl, rfl, rfl⟩

/-! ### Commands -/

/-- The state a command that raises no fault leaves, ACK apart. -/
inductive Effect : Instr → State → State → Prop
  | nop (s : State) : Effect .nop s s
  | configure {s : State} {r : RateSet} {p : ProfileSet} (hrate : rateOk (opSampleRate s) = true)
      (hset : recomputeFull s.par (opSampleRate s) s.profile s.formula = some (r, p)) :
      Effect .configure s { commitProfile p (commitRate r s) with fs := opSampleRate s, blockState := .ready }
  | switchProfile {f : Formula} {s : State} {q : ProfileSet} (hbias : F64.isFinite (opBias s) = true)
      (hgain : F64.isFinite (opGain s) = true) (hready : s.blockState = .ready)
      (hset : recomputeProfile s.par s.fs (profileOf s.par (clampedBias (opBias s))) f = some q) :
      Effect (.setProfile f) s (storeSettings (clampedBias (opBias s)) (opGain s)
        (profileOf s.par (clampedBias (opBias s))) f (commitProfile q s))
  | latchProfile {f : Formula} {s : State} (hbias : F64.isFinite (opBias s) = true)
      (hgain : F64.isFinite (opGain s) = true)
      (hsame : s.blockState = .ready → profileOf s.par (clampedBias (opBias s)) = s.profile ∧ f = s.formula) :
      Effect (.setProfile f) s (storeSettings (clampedBias (opBias s)) (opGain s)
        (profileOf s.par (clampedBias (opBias s))) f s)
  | reset (s : State) : Effect .reset s (zeroSignal s)
  | process {s : State} (hready : s.blockState = .ready) : Effect .process s (processed s)
  | process2 {s : State} (hready : s.blockState = .ready) : Effect .process2 s (processed2 s)
  | rdReg {a : Nat} {s : State} {v : Word} (hread : regRead s a = some v) : Effect (.rdReg a) s { s with res := v }
  | calibrate {i : Instr} {s : State} {put : Word → Tuning → Tuning} (hput : calPut i = some put)
      (hvalue : F64.isFinite (opValue s) = true) : Effect i s { s with tuning := put (opValue s) s.tuning }

theorem isReady_iff {s : State} : s.isReady = true ↔ s.blockState = .ready := by
  simp [State.isReady]

theorem configureBody_effect {s u : State} (h : configureBody s = .ok u) : Effect .configure s u := by
  unfold configureBody at h
  split at h
  · split at h
    · cases h
      exact .configure ‹_› ‹_›
    · cases h
  · cases h

/-- Settings that did not change are the ones held already. -/
theorem settings_eq_of_not_changed {s : State} {p : Profile} {f : Formula} {g : Word}
    (h : settingsChanged s p f g = false) : p = s.profile ∧ f = s.formula := by
  simp only [settingsChanged, Bool.or_eq_false_iff, bne_eq_false_iff_eq] at h
  exact h.1

theorem setProfileBody_effect {f : Formula} {s u : State} (h : setProfileBody f s = .ok u) :
    Effect (.setProfile f) s u := by
  simp only [setProfileBody] at h
  split at h
  · rename_i hfin
    obtain ⟨hbias, hgain⟩ := Bool.and_eq_true_iff.mp hfin
    split at h
    · rename_i hchange
      split at h
      · cases h
        exact .switchProfile hbias hgain (isReady_iff.mp (Bool.and_eq_true_iff.mp hchange).1) ‹_›
      · cases h
    · rename_i hsame
      cases h
      refine .latchProfile hbias hgain fun hready => settings_eq_of_not_changed (g := opGain s) ?_
      simpa [isReady_iff.mpr hready] using hsame
  · cases h

theorem calibrate_effect {i : Instr} {put : Word → Tuning → Tuning} (hput : calPut i = some put) {s u : State}
    (h : calibrate put s = .ok u) : Effect i s u := by
  unfold calibrate at h
  split at h
  · cases h
    exact .calibrate hput ‹_›
  · cases h

/-- A command that was refused or that raised a fault wrote `FAULT` and `ACK` alone, and `ACK` is not OK. -/
def NotDone (s t : State) : Prop := t.ack ≠ .ok ∧ t = { s with fault := t.fault, ack := t.ack }

theorem framed_effect {i : Instr} {s : State} {body : State → Except FaultCode State}
    (hbody : ∀ u, body s = .ok u → Effect i s u) :
    NotDone s (framed s body) ∨ ∃ u, Effect i s u ∧ framed s body = complete u := by
  rcases framed_cases s body with ⟨-, h⟩ | ⟨-, u, hu, h⟩ | ⟨-, c, -, h⟩
  · exact .inl (h ▸ ⟨by simp, rfl⟩)
  · exact .inr ⟨u, hbody u hu, h⟩
  · exact .inl (h ▸ ⟨by simp, rfl⟩)

/-- Everything a command can do: fail, or have its effect and then `ACK` OK (R340). -/
theorem exec_effect {i : Instr} {s t : State} (h : exec i s = .next t) :
    NotDone s t ∨ ∃ u, Effect i s u ∧ t = complete u := by
  cases hcal : calPut i with
  | some put =>
    rw [exec_of_calPut hcal] at h
    cases h
    exact framed_effect fun _ => calibrate_effect hcal
  | none =>
    cases i with
    | nop =>
      cases h
      exact .inr ⟨s, .nop s, rfl⟩
    | configure =>
      cases h
      exact framed_effect fun _ => configureBody_effect
    | setProfile f =>
      cases h
      exact framed_effect fun _ => setProfileBody_effect
    | reset =>
      cases h
      exact framed_effect fun _ hu => by
        cases hu
        exact .reset s
    | process =>
      cases h
      refine framed_effect fun u hu => ?_
      split at hu
      · cases hu
        exact .process (isReady_iff.mp ‹_›)
      · cases hu
    | process2 =>
      cases h
      refine framed_effect fun u hu => ?_
      split at hu
      · cases hu
        exact .process2 (isReady_iff.mp ‹_›)
      · cases hu
    | rdReg a =>
      rcases execRdReg_cases a s with ⟨v, hv, he⟩ | ⟨-, he⟩
      · cases he.symm.trans h
        exact .inr ⟨_, .rdReg hv, rfl⟩
      · cases he.symm.trans h
        exact .inl ⟨by simp, rfl⟩
    | calSatA3 | calPower | calLowScale | calBlendRatio | calLowThresh | calCurvePower | calKneeThresh
      | calKneeAmount => cases hcal

/-! ### Steps -/

/-- The state in which a command runs: its `CMD` write is taken and the word latched (R340). -/
def State.latched (s : State) (rest : List HostEvent) (w : CmdWord) : State := { s with pending := rest, cmd := w }

theorem windowReg_eq_some {offset width : Nat} {r : WindowReg} (h : windowReg offset width = some r) :
    offset = r.offset ∧ width = r.width := by
  unfold windowReg at h
  split_ifs at h <;> cases h <;> exact ⟨‹_›, ‹_›⟩

/-- A step that neither pulses reset nor completes a command: it changes only the host window, the host's side of the
port, `FAULT` and `ACK`, and the operand registers only where the host writes them. -/
structure Idle (s t : State) : Prop where
  eq : t = { s with cmd := t.cmd, op0 := t.op0, op1 := t.op1, fault := t.fault, ack := t.ack, pending := t.pending
                    rdata := t.rdata }
  op0 : t.op0 = s.op0 ∨ s.takesWrite 0x08
  op1 : t.op1 = s.op1 ∨ s.takesWrite 0x10

/-- Everything a step can do. -/
theorem step_effect {s t : State} (h : step s = .next t) :
    (s.takesReset ∧ ∃ rest, t = hwReset { s with pending := rest }) ∨ Idle s t ∨
    ∃ i rest w u, s.takesCommand i ∧ Effect i (s.latched rest w) u ∧ t = complete u := by
  rcases step_cases h with ⟨-, rfl⟩ | ⟨rest, hp, rfl⟩ | ⟨_, _, rest, _, -, -, rfl⟩ | ⟨offset, lanes, rest, hp, hw⟩
  · exact .inr (.inl ⟨rfl, .inl rfl, .inl rfl⟩)
  · exact .inl ⟨by simp [State.takesReset, hp], rest, rfl⟩
  · exact .inr (.inl ⟨rfl, .inl rfl, .inl rfl⟩)
  · have hhead : s.pending.head? = some (.write offset lanes) := by simp [hp]
    rcases hostWrite_cases hw with ⟨hreg, hissue⟩ | ⟨hreg, rfl⟩ | ⟨hreg, rfl⟩ | ⟨-, rfl⟩
    · obtain ⟨rfl, -⟩ := windowReg_eq_some hreg
      rcases issue_cases hissue with ⟨i, hi, he⟩ | ⟨_, -, rfl⟩
      · rcases exec_effect he with ⟨-, ht⟩ | ⟨u, hu, rfl⟩
        · rw [ht]
          exact .inr (.inl ⟨rfl, .inl rfl, .inl rfl⟩)
        · exact .inr (.inr ⟨i, rest, _, u, ⟨lanes, hhead, hi⟩, hu, rfl⟩)
      · unfold illegalCommand
        rcases framed_cases { s with pending := rest, cmd := cmdOfLanes lanes } (fun _ => .error .illegalCmd) with
          ⟨-, he⟩ | ⟨-, _, he, -⟩ | ⟨-, _, -, he⟩
        · exact .inr (.inl (he ▸ ⟨rfl, .inl rfl, .inl rfl⟩))
        · cases he
        · exact .inr (.inl (he ▸ ⟨rfl, .inl rfl, .inl rfl⟩))
    · obtain ⟨rfl, -⟩ := windowReg_eq_some hreg
      exact .inr (.inl ⟨rfl, .inr ⟨lanes, hhead⟩, .inl rfl⟩)
    · obtain ⟨rfl, -⟩ := windowReg_eq_some hreg
      exact .inr (.inl ⟨rfl, .inl rfl, .inr ⟨lanes, hhead⟩⟩)
    · exact .inr (.inl ⟨rfl, .inl rfl, .inl rfl⟩)

/-- A step that takes a pulse of `rst_n` is a hardware reset. -/
theorem step_of_takesReset {s t : State} (hr : s.takesReset) (h : step s = .next t) :
    ∃ rest, t = hwReset { s with pending := rest } := by
  unfold State.takesReset at hr
  rcases step_cases h with ⟨hp, -⟩ | ⟨rest, -, rfl⟩ | ⟨_, _, _, _, hp, -, -⟩ | ⟨_, _, _, hp, -⟩
  · simp [hp] at hr
  · exact ⟨rest, rfl⟩
  · simp [hp] at hr
  · simp [hp] at hr

end Sys2Proof.Machine

/-! SUPPORT. What each effect and each idle step leaves unchanged (spec/10_state.md R34 to R46), and the statements
about who writes which register. -/

namespace Sys2Proof.Machine

/-! ### Agreement -/

theorem bankCoeffs_bankReset (bank : List Biquad) : bankCoeffs (bankReset bank) = bankCoeffs bank := by
  simp [bankCoeffs, bankReset, bqReset]

theorem dispCoeffs_apReset (bank : List DispStage) : dispCoeffs (bank.map apReset) = dispCoeffs bank := by
  simp [dispCoeffs, apReset]

theorem SameRate.refl (s : State) : SameRate s s := ⟨rfl, rfl, rfl, rfl, rfl, rfl⟩

theorem SameShape.refl (s : State) : SameShape s s := ⟨rfl, rfl, rfl, rfl, rfl, rfl, rfl⟩

theorem SameDelayLine.refl (s : State) : SameDelayLine s s := ⟨rfl, rfl, fun _ => rfl⟩

theorem SameSignal.refl (s : State) : SameSignal s s :=
  ⟨rfl, rfl, rfl, rfl, rfl, rfl, rfl, rfl, rfl, rfl, .refl s⟩

section Idle

variable {s t : State} (h : Idle s t)
include h

theorem Idle.res : t.res = s.res := by rw [h.eq]

theorem Idle.par : t.par = s.par := by rw [h.eq]

theorem Idle.blockState : t.blockState = s.blockState := by rw [h.eq]

theorem Idle.sameSettings : SameSettings s t := by
  rw [h.eq]
  exact ⟨rfl, rfl, rfl, rfl, rfl⟩

theorem Idle.sameCoeffs : SameCoeffs s t := by
  rw [h.eq]
  exact ⟨{ SameRate.refl s with }, { SameShape.refl s with }, rfl⟩

theorem Idle.sameSignal : SameSignal s t := by
  rw [h.eq]
  exact { SameSignal.refl s with delay := { SameDelayLine.refl s with } }

end Idle

/-! ### The frame of PROCESS and PROCESS2, register by register (R313, R344, R345) -/

/-- A state with every register cleared that PROCESS or PROCESS2 can change. -/
def State.kept (s : State) : State := { s.frozen with res := 0#64, mem := [], azZ := Lit.zero, azWidx := 0 }

theorem kept_of_frozen {s t : State} (h : t.frozen = s.frozen) (y z : Word) (m : Memory) (w : Fin 16) :
    ({ t with res := y, mem := m, azZ := z, azWidx := w } : State).kept = s.kept :=
  (congrArg (fun v : State => { v with res := 0#64, mem := [], azZ := Lit.zero, azWidx := 0 }) h :)

@[simp] theorem processed_kept (s : State) : (processed s).kept = s.kept :=
  kept_of_frozen (pipeline_frozen s (opSample s)) _ _ _ _

@[simp] theorem processed2_kept (s : State) : (processed2 s).kept = s.kept := by
  have h := pipeline_frozen s (opSample s)
  simp only [processed2]
  generalize pipeline s (opSample s) = p at h ⊢
  exact kept_of_frozen h _ _ _ _

/-- PROCESS leaves the delay line alone (R344). -/
theorem processed_sameDelayLine (s : State) : SameDelayLine s (processed s) := by
  have h := pipeline_frozen s (opSample s)
  unfold processed
  generalize pipeline s (opSample s) = p at h ⊢
  exact ⟨(congrArg State.azZ h :), (congrArg State.azWidx h :),
    fun a => (congrArg (fun v : State => Memory.readByte v.mem a) h :)⟩

section Kept

variable {s t : State} (h : t.kept = s.kept)
include h

theorem blockState_of_kept : t.blockState = s.blockState := (congrArg State.blockState h :)

theorem sameHost_of_kept : SameHost s t :=
  ⟨(congrArg State.cmd h :), (congrArg State.op0 h :), (congrArg State.op1 h :), (congrArg State.par h :),
    (congrArg State.pending h :), (congrArg State.rdata h :)⟩

theorem sameSettings_of_kept : SameSettings s t :=
  ⟨(congrArg State.fs h :), (congrArg State.bias h :), (congrArg State.ingain h :), (congrArg State.profile h :),
    (congrArg State.formula h :)⟩

theorem sameRate_of_kept : SameRate s t := by
  have hbank {a b : List Biquad} (hab : bankReset a = bankReset b) : bankCoeffs a = bankCoeffs b := by
    rw [← bankCoeffs_bankReset a, hab, bankCoeffs_bankReset]
  exact ⟨hbank (congrArg State.eqa h :), hbank (congrArg State.eqb h :), hbank (congrArg State.dcb h :),
    (congrArg State.blendAtt h :), (congrArg State.blendRel h :), (congrArg State.fadeInc h :)⟩

theorem sameShape_of_kept : SameShape s t := by
  have hshield : bankReset t.shield = bankReset s.shield := (congrArg State.shield h :)
  have hdisp : t.disp.map apReset = s.disp.map apReset := (congrArg State.disp h :)
  refine ⟨?_, (congrArg State.shieldNorm h :), ?_, (congrArg State.azDelay h :), (congrArg State.azInt h :),
    (congrArg State.azFrac h :), (congrArg State.azCoeff h :)⟩
  · rw [← bankCoeffs_bankReset, hshield, bankCoeffs_bankReset]
  · rw [← dispCoeffs_apReset, hdisp, dispCoeffs_apReset]

theorem sameCoeffs_of_kept : SameCoeffs s t :=
  ⟨sameRate_of_kept h, sameShape_of_kept h, (congrArg State.tuning h :)⟩

end Kept

/-! ### What each effect writes -/

section Effects

variable {i : Instr} {s u : State} (h : Effect i s u)
include h

/-- No command writes the host's registers, `RES` apart, or the parameters (R30, R104). -/
theorem Effect.sameHost : SameHost s u := by
  cases h with
  | process | process2 => exact (sameHost_of_kept (by simp))
  | nop | configure | switchProfile | latchProfile | reset | rdReg | calibrate => exact ⟨rfl, rfl, rfl, rfl, rfl, rfl⟩

theorem Effect.res : u.res = s.res ∨ i = .process ∨ i = .process2 ∨ ∃ a, i = .rdReg a := by
  cases h with
  | process => exact .inr (.inl rfl)
  | process2 => exact .inr (.inr (.inl rfl))
  | rdReg => exact .inr (.inr (.inr ⟨_, rfl⟩))
  | nop | configure | switchProfile | latchProfile | reset | calibrate => exact .inl rfl

theorem Effect.blockState : u.blockState = s.blockState ∨ (i = .configure ∧ u.blockState = .ready) := by
  cases h with
  | configure => exact .inr ⟨rfl, rfl⟩
  | process | process2 => exact .inl (blockState_of_kept (by simp))
  | nop | switchProfile | latchProfile | reset | rdReg | calibrate => exact .inl rfl

/-- `FS` is CONFIGURE's, the other settings are SET_PROFILE's (R35). -/
theorem Effect.settings : (u.fs = s.fs ∨ i = .configure) ∧
    ((u.bias = s.bias ∧ u.ingain = s.ingain ∧ u.profile = s.profile ∧ u.formula = s.formula) ∨
      ∃ f, i = .setProfile f) := by
  cases h with
  | configure => exact ⟨.inr rfl, .inl ⟨rfl, rfl, rfl, rfl⟩⟩
  | switchProfile => exact ⟨.inl rfl, .inr ⟨_, rfl⟩⟩
  | latchProfile => exact ⟨.inl rfl, .inr ⟨_, rfl⟩⟩
  | process | process2 =>
    suffices hs : SameSettings s _ from ⟨.inl hs.fs, .inl ⟨hs.bias, hs.ingain, hs.profile, hs.formula⟩⟩
    exact sameSettings_of_kept (by simp)
  | nop | reset | rdReg | calibrate => exact ⟨.inl rfl, .inl ⟨rfl, rfl, rfl, rfl⟩⟩

/-- The rate-dependent coefficients are CONFIGURE's (R38, R342). -/
theorem Effect.sameRate : SameRate s u ∨ i = .configure := by
  cases h with
  | configure => exact .inr rfl
  | process | process2 => exact .inl (sameRate_of_kept (by simp))
  | reset =>
    exact .inl ⟨bankCoeffs_bankReset _, bankCoeffs_bankReset _, bankCoeffs_bankReset _, rfl, rfl, rfl⟩
  | nop | switchProfile | latchProfile | rdReg | calibrate => exact .inl { SameRate.refl s with }

/-- The profile-dependent coefficients are written by a recomputation (R40, R347). -/
theorem Effect.sameShape : SameShape s u ∨ i = .configure ∨ (s.blockState = .ready ∧ ∃ f, i = .setProfile f) := by
  cases h with
  | configure => exact .inr (.inl rfl)
  | switchProfile _ _ hready => exact .inr (.inr ⟨hready, _, rfl⟩)
  | process | process2 => exact .inl (sameShape_of_kept (by simp))
  | reset => exact .inl ⟨bankCoeffs_bankReset _, rfl, dispCoeffs_apReset _, rfl, rfl, rfl, rfl⟩
  | nop | latchProfile | rdReg | calibrate => exact .inl { SameShape.refl s with }

/-- The tuning registers are written by a recomputation or a calibration command (R37, R441). -/
theorem Effect.tuning : u.tuning = s.tuning ∨ i = .configure ∨ (s.blockState = .ready ∧ ∃ f, i = .setProfile f) ∨
    (calPut i).isSome = true := by
  cases h with
  | configure => exact .inr (.inl rfl)
  | switchProfile _ _ hready => exact .inr (.inr (.inl ⟨hready, _, rfl⟩))
  | calibrate hput => exact .inr (.inr (.inr (by simp [hput])))
  | process | process2 => exact .inl (sameCoeffs_of_kept (by simp)).tuning
  | nop | latchProfile | reset | rdReg => exact .inl rfl

/-- The delay line is PROCESS2's and RESET's (R91, R270). -/
theorem Effect.sameDelayLine : SameDelayLine s u ∨ i = .process2 ∨ i = .reset := by
  cases h with
  | process2 => exact .inr (.inl rfl)
  | reset => exact .inr (.inr rfl)
  | process => exact .inl (processed_sameDelayLine s)
  | nop | configure | switchProfile | latchProfile | rdReg | calibrate => exact .inl { SameDelayLine.refl s with }

end Effects

/-! ### What a recomputation gives (R348) -/

/-- The lengths of the banks, spelled out. -/
theorem shapeOk_iff {s : State} : s.shapeOk = true ↔ s.shield.length = 3 ∧ s.eqa.length = s.par.eqN .A ∧
    s.eqb.length = s.par.eqN .B ∧ s.dcb.length = 2 ∧ s.disp.length = s.par.nDisp.val := by
  simp [State.shapeOk, Config.dcbN, and_assoc]

theorem EqCount.toNat_le (n : EqCount) : n.toNat ≤ 12 := by cases n <;> decide

theorem eqDesign_length (P : Params) (p : Profile) : (P.eqDesign p).length = P.eqN p := by
  cases p <;> simp [Params.eqDesign, Params.eqN, EqCount.toNat_le]

/-- The sets of a rate recomputation have the lengths of their banks, and every number in them is finite. -/
structure RateSet.Sound (P : Params) (r : RateSet) : Prop where
  eqa_length : r.eqa.length = P.eqN .A
  eqb_length : r.eqb.length = P.eqN .B
  dcb_length : r.dcb.length = 2
  eqa : ∀ c ∈ r.eqa, c.finite = true
  eqb : ∀ c ∈ r.eqb, c.finite = true
  dcb : ∀ c ∈ r.dcb, c.finite = true
  blendAtt : F64.isFinite r.blendAtt = true
  blendRel : F64.isFinite r.blendRel = true
  fadeInc : F64.isFinite r.fadeInc = true

theorem recomputeRate_sound {P : Params} {fs : Word} {r : RateSet} (h : recomputeRate P fs = some r) :
    r.Sound P ∧ r.fadeInc = fadeIncrement P fs := by
  simp only [recomputeRate] at h
  split at h
  · rename_i heqa heqb hdcb
    split at h
    · rename_i hfin
      cases h
      simp only [Bool.and_eq_true] at hfin
      obtain ⟨⟨hatt, hrel⟩, hinc⟩ := hfin
      obtain ⟨la, fa⟩ := designAll_spec heqa
      obtain ⟨lb, fb⟩ := designAll_spec heqb
      obtain ⟨ld, fd⟩ := designAll_spec hdcb
      exact ⟨⟨la.trans (eqDesign_length P .A), lb.trans (eqDesign_length P .B), ld, fa, fb, fd, hatt, hrel, hinc⟩, rfl⟩
    · cases h
  · cases h

/-- The sets of a profile recomputation have the lengths of their banks, and every number in them is finite. -/
structure ProfileSet.Sound (P : Params) (q : ProfileSet) : Prop where
  shield_length : q.shield.length = 3
  disp_length : q.disp.length = P.nDisp.val
  shield : ∀ c ∈ q.shield, c.finite = true
  shieldNorm : F64.isFinite q.shieldNorm = true
  disp : ∀ c ∈ q.disp, F64.isFinite c.1 = true ∧ F64.isFinite c.2 = true
  azDelay : F64.isFinite q.azimuth.delay = true
  azFrac : F64.isFinite q.azimuth.frac = true
  azCoeff : F64.isFinite q.azimuth.coeff = true
  tuning : Tuning.finite q.tuning = true

theorem shieldNormOf_finite {cs : List Coeffs} {w : Word} (h : shieldNormOf cs = some w) : F64.isFinite w = true := by
  simp only [shieldNormOf] at h
  split at h
  · cases h
  · split at h
    · cases h
      assumption
    · cases h

theorem azDesign_finite {p : Profile} {fs : Word} {z : AzimuthSet} (h : azDesign p fs = some z) :
    F64.isFinite z.delay = true ∧ F64.isFinite z.frac = true ∧ F64.isFinite z.coeff = true := by
  simp only [azDesign] at h
  split at h
  · cases h
  · rename_i hd
    simp only [Bool.or_eq_true, not_or, Bool.not_eq_true, Bool.not_eq_false'] at hd
    split at h
    · cases h
    · split at h
      · rename_i hfin
        cases h
        obtain ⟨hfrac, hcoeff⟩ := Bool.and_eq_true_iff.mp hfin
        exact ⟨hd.1, hfrac, hcoeff⟩
      · cases h

theorem recomputeProfile_sound {P : Params} {fs : Word} {p : Profile} {f : Formula} {q : ProfileSet}
    (h : recomputeProfile P fs p f = some q) : q.Sound P := by
  have ht := (recomputeProfile_tuning h).2
  unfold recomputeProfile at h
  split at h
  · cases h
  · rename_i hshield
    split at h
    · rename_i hnorm hdisp haz
      split at h
      · cases h
        obtain ⟨ls, fs⟩ := designAll_spec hshield
        obtain ⟨ld, fd⟩ := dispDesign_spec hdisp
        obtain ⟨hd, hfrac, hcoeff⟩ := azDesign_finite haz
        exact ⟨ls, ld, fs, shieldNormOf_finite hnorm, fd, hd, hfrac, hcoeff, ht⟩
      · cases h
    · cases h

/-- Committing keeps the signal state of the shield and the dispersive bank (R347). -/
theorem commitProfile_sameSignal {s : State} {q : ProfileSet} (hq : q.Sound s.par) (hs : s.shapeOk = true) :
    SameSignal s (commitProfile q s) := by
  obtain ⟨hshield, -, -, -, hdisp⟩ := shapeOk_iff.mp hs
  exact { SameSignal.refl s with
    shield := bankSignal_commitBank (hq.shield_length.trans hshield.symm)
    disp := dispSignal_commitDisp (hq.disp_length.trans hdisp.symm)
    delay := { SameDelayLine.refl s with } }

/-- Committing keeps the signal state of the equalizers and the DC blocker (R342). -/
theorem commitRate_sameSignal {s : State} {r : RateSet} (hr : r.Sound s.par) (hs : s.shapeOk = true) :
    SameSignal s (commitRate r s) := by
  obtain ⟨-, heqa, heqb, hdcb, -⟩ := shapeOk_iff.mp hs
  exact { SameSignal.refl s with
    eqa := bankSignal_commitBank (hr.eqa_length.trans heqa.symm)
    eqb := bankSignal_commitBank (hr.eqb_length.trans heqb.symm)
    dcb := bankSignal_commitBank (hr.dcb_length.trans hdcb.symm)
    delay := { SameDelayLine.refl s with } }

/-- The signal state is written by the pipeline commands and RESET (R46 c). -/
theorem Effect.sameSignal {i : Instr} {s u : State} (hs : s.shapeOk = true) (h : Effect i s u) :
    SameSignal s u ∨ i = .process ∨ i = .process2 ∨ i = .reset := by
  cases h with
  | process => exact .inr (.inl rfl)
  | process2 => exact .inr (.inr (.inl rfl))
  | reset => exact .inr (.inr (.inr rfl))
  | configure _ hset =>
    obtain ⟨hr, hq⟩ := recomputeFull_some.mp hset
    have hrate := commitRate_sameSignal (recomputeRate_sound hr).1 hs
    have hprof := commitProfile_sameSignal (recomputeProfile_sound hq) hs
    exact .inl { hrate with shield := hprof.shield, disp := hprof.disp, delay := { SameDelayLine.refl s with } }
  | switchProfile _ _ _ hset =>
    exact .inl { commitProfile_sameSignal (recomputeProfile_sound hset) hs with delay := { SameDelayLine.refl s with } }
  | nop | latchProfile | rdReg | calibrate =>
    exact .inl { SameSignal.refl s with delay := { SameDelayLine.refl s with } }

/-! ### The statements -/

/-- A step without a pulse of `rst_n` is idle or completes the command it takes. -/
theorem step_effect_of_not_reset {s t : State} (h : step s = .next t) (hr : ¬ s.takesReset) :
    Idle s t ∨ ∃ i rest w u, s.takesCommand i ∧ Effect i (s.latched rest w) u ∧ t = complete u :=
  (step_effect h).resolve_left fun hreset => hr hreset.1

/-- Settles O39: of the effects CONFIGURE's alone writes `STATE`, and it writes Ready. -/
theorem readyState : Obligations.ReadyState := by
  refine ⟨fun s t h hr => ?_, fun s t h hack => ?_, fun i s t h hack => ?_, fun s t h hs ht => ?_,
    fun s t h hs ht => ?_⟩
  · obtain ⟨rest, rfl⟩ := step_of_takesReset hr h
    rfl
  · rcases exec_effect h with ⟨hno, -⟩ | ⟨u, hu, rfl⟩
    · exact absurd hack hno
    · cases hu with
      | configure => rfl
      | calibrate hput => cases hput
  · rcases exec_effect h with ⟨-, ht⟩ | ⟨u, -, rfl⟩
    · rw [ht]
    · exact absurd rfl hack
  · rcases step_effect h with ⟨-, rest, rfl⟩ | hidle | ⟨i, rest, w, u, hi, hu, rfl⟩
    · cases ht
    · cases hs.symm.trans (hidle.blockState.symm.trans ht)
    · rcases hu.blockState with hsame | ⟨rfl, -⟩
      · cases hs.symm.trans (hsame.symm.trans ht)
      · exact hi
  · rcases step_effect h with ⟨hr, -⟩ | hidle | ⟨i, rest, w, u, -, hu, rfl⟩
    · exact hr
    · cases hs.symm.trans (hidle.blockState.symm.trans ht)
    · rcases hu.blockState with hsame | ⟨-, hready⟩
      · cases hs.symm.trans (hsame.symm.trans ht)
      · cases hready.symm.trans ht

/-- Settles O40, by the writers of the host window among the effects and the idle steps. -/
theorem operandAndResultRegisters : Obligations.OperandAndResultRegisters := by
  refine ⟨fun i s t h => ?_, fun s t h hne => ?_, fun s t h hne => ?_, fun s t h hne => ?_⟩
  · rcases exec_effect h with ⟨-, ht⟩ | ⟨u, hu, rfl⟩
    · rw [ht]
      exact ⟨rfl, rfl, rfl, rfl, rfl, rfl⟩
    · exact { hu.sameHost with }
  · rcases step_effect h with ⟨hr, -⟩ | hidle | ⟨_, _, _, u, -, hu, rfl⟩
    · exact .inr hr
    · exact .inl (hidle.op0.resolve_left hne)
    · exact absurd hu.sameHost.op0 hne
  · rcases step_effect h with ⟨hr, -⟩ | hidle | ⟨_, _, _, u, -, hu, rfl⟩
    · exact .inr hr
    · exact .inl (hidle.op1.resolve_left hne)
    · exact absurd hu.sameHost.op1 hne
  · rcases step_effect h with ⟨hr, -⟩ | hidle | ⟨i, _, _, u, hi, hu, rfl⟩
    · exact .inr (.inr (.inr hr))
    · exact absurd hidle.res hne
    · rcases hu.res.resolve_left hne with rfl | rfl | ⟨a, rfl⟩
      · exact .inl hi
      · exact .inr (.inl hi)
      · exact .inr (.inr (.inl ⟨a, hi⟩))

/-- Settles O41, by the writers of the settings among the effects (`Effect.settings`). -/
theorem settingsWriters : Obligations.SettingsWriters := by
  intro s t h hr
  rcases step_effect_of_not_reset h hr with hidle | ⟨i, _, _, u, hi, hu, rfl⟩
  · have hs := hidle.sameSettings
    refine ⟨fun hne => absurd hs.fs hne, fun hne => ?_⟩
    simp [hs.bias, hs.ingain, hs.profile, hs.formula] at hne
  · obtain ⟨hfs, hset⟩ := hu.settings
    refine ⟨fun hne => hfs.resolve_left hne ▸ hi, fun hne => ?_⟩
    rcases hset with ⟨hb, hg, hp, hf⟩ | ⟨f, rfl⟩
    · exact absurd hne (by simp [hb, hg, hp, hf, State.latched])
    · exact ⟨f, hi⟩

/-- The eight calibration commands. -/
theorem calPut_isSome {i : Instr} (h : (calPut i).isSome = true) : i = .calSatA3 ∨ i = .calPower ∨ i = .calLowScale ∨
    i = .calBlendRatio ∨ i = .calLowThresh ∨ i = .calCurvePower ∨ i = .calKneeThresh ∨ i = .calKneeAmount := by
  cases i <;> simp [calPut] at h ⊢

/-- Settles O42, by the writers of each set of coefficients among the effects. -/
theorem coefficientWriters : Obligations.CoefficientWriters := by
  intro s t h hr
  rcases step_effect_of_not_reset h hr with hidle | ⟨i, _, _, u, hi, hu, rfl⟩
  · have hs := hidle.sameCoeffs
    exact ⟨fun hne => absurd hs.rate hne, fun hne => absurd hs.shape hne, fun hne => absurd hs.tuning hne⟩
  · refine ⟨fun hne => ?_, fun hne => ?_, fun hne => ?_⟩
    · rcases hu.sameRate with hsame | rfl
      · exact absurd { hsame with } hne
      · exact hi
    · rcases hu.sameShape with hsame | rfl | ⟨hready, f, rfl⟩
      · exact absurd { hsame with } hne
      · exact .inl hi
      · exact .inr ⟨hready, f, hi⟩
    · rcases hu.tuning.resolve_left hne with rfl | ⟨hready, f, rfl⟩ | hcal
      · exact .inl hi
      · exact .inr (.inl ⟨hready, f, hi⟩)
      · rcases calPut_isSome hcal with rfl | rfl | rfl | rfl | rfl | rfl | rfl | rfl <;> simp [hi]

/-- Settles O43: committing keeps the state registers of a bank of the same length, which a recomputation gives. -/
theorem signalStateWriters : Obligations.SignalStateWriters := by
  intro s t hs h hr
  rcases step_effect_of_not_reset h hr with hidle | ⟨i, rest, w, u, hi, hu, rfl⟩
  · exact ⟨fun hne => absurd hidle.sameSignal.delay hne, fun hne => absurd hidle.sameSignal hne⟩
  · refine ⟨fun hne => ?_, fun hne => ?_⟩
    · rcases hu.sameDelayLine with hsame | rfl | rfl
      · exact absurd { hsame with } hne
      · exact .inl hi
      · exact .inr hi
    · rcases Effect.sameSignal (s := s.latched rest w) hs hu with hsame | rfl | rfl | rfl
      · exact absurd { hsame with delay := { hsame.delay with } } hne
      · exact .inl hi
      · exact .inr (.inl hi)
      · exact .inr (.inr hi)

end Sys2Proof.Machine

/-! SUPPORT. The `STATUS` word (spec/10_state.md R33) by its fields, and the register space (R48) by the names of its
elements: which address each name has, and what a read there returns. -/

namespace Sys2Proof.Machine

/-! ### The fields of `STATUS` -/

theorem bit_le (b : Bool) : bit b ≤ 1 := by cases b <;> decide

theorem bit_eq_one {b : Bool} : bit b = 1 ↔ b = true := by cases b <;> decide

theorem fcode_le (f : Option FaultCode) : fcode f ≤ 6 := by
  rcases f with _ | c
  · decide
  · cases c <;> decide

theorem ackCode_le (a : Ack) : ackCode a ≤ 2 := by cases a <;> decide

/-- The fields of the number that `STATUS` is built from, by their places. -/
theorem status_fields {n r f c p q d a : Nat}
    (hn : n = (r + 2 * f + 16 * c + 256 * p + 512 * q + 1024 * d + 4096 * a) % 2 ^ 64) (hr : r ≤ 1) (hf : f ≤ 1)
    (hc : c ≤ 6) (hp : p ≤ 1) (hq : q ≤ 1) (hd : d ≤ 1) (ha : a ≤ 2) :
    n / 2 ^ 0 % 2 = r ∧ n / 2 ^ 1 % 2 = f ∧ n / 2 ^ 2 % 2 ^ 2 = 0 ∧ n / 2 ^ 4 % 2 ^ 4 = c ∧ n / 2 ^ 8 % 2 = p ∧
      n / 2 ^ 9 % 2 = q ∧ n / 2 ^ 10 % 2 = d ∧ n / 2 ^ 11 % 2 = 0 ∧ n / 2 ^ 12 % 2 ^ 2 = a ∧
      n / 2 ^ 14 % 2 ^ 50 = 0 := by
  omega

theorem statusWord_toNat (s : State) : (statusWord s).toNat =
    (bit s.isReady + 2 * bit s.fault.isSome + 16 * fcode s.fault + 256 * bit (s.profile == .A)
      + 512 * bit (s.formula == .f2) + 1024 * bit s.fadeDone + 4096 * ackCode s.ack) % 2 ^ 64 :=
  BitVec.toNat_ofNat _ _

theorem getLsbD_iff_of_field {w : Word} {i : Nat} {b : Bool} (h : w.toNat / 2 ^ i % 2 = bit b) :
    w.getLsbD i = true ↔ b = true := by
  rw [BitVec.getLsbD, Nat.testBit_eq_decide_div_mod_eq, decide_eq_true_eq, h, bit_eq_one]

theorem extractLsb'_of_field {w : Word} {lo len : Nat} {v : BitVec len} (h : w.toNat / 2 ^ lo % 2 ^ len = v.toNat) :
    w.extractLsb' lo len = v := by
  rwa [← BitVec.toNat_inj, BitVec.extractLsb'_toNat, Nat.shiftRight_eq_div_pow]

/-- Settles O12, by the places of the fields in the number `STATUS` is built from. -/
theorem statusLayout : Obligations.StatusLayout := by
  intro s
  obtain ⟨hready, hfault, hlow, hcode, hprofile, hformula, hfade, hmid, hack, hhigh⟩ :=
    status_fields (statusWord_toNat s) (bit_le _) (bit_le _) (fcode_le _) (bit_le _) (bit_le _) (bit_le _)
      (ackCode_le _)
  refine ⟨(getLsbD_iff_of_field hready).trans isReady_iff, getLsbD_iff_of_field hfault, extractLsb'_of_field hlow,
    extractLsb'_of_field (hcode.trans ?_), (getLsbD_iff_of_field hprofile).trans beq_iff_eq,
    (getLsbD_iff_of_field hformula).trans beq_iff_eq, getLsbD_iff_of_field hfade,
    Bool.eq_false_iff.mpr fun h => Bool.false_ne_true ((getLsbD_iff_of_field (b := false) hmid).mp h),
    extractLsb'_of_field (hack.trans ?_), extractLsb'_of_field hhigh, rfl⟩
  · rcases s.fault with _ | c
    · rfl
    · cases c <;> rfl
  · cases s.ack <;> rfl

/-! ### Parameters (R45) -/

theorem step_par {s t : State} (h : step s = .next t) : t.par = s.par := by
  rcases step_effect h with ⟨-, rest, rfl⟩ | hidle | ⟨_, _, _, u, -, hu, rfl⟩
  · rfl
  · exact hidle.par
  · exact hu.sameHost.par

/-- Settles O13: the reads are by definition, and no effect touches the parameters. -/
theorem countRegistersConstant : Obligations.CountRegistersConstant :=
  ⟨fun _ => ⟨rfl, rfl, rfl, rfl, rfl⟩, fun _ _ => step_par⟩

/-! ### Addresses (R48) -/

theorem SecField.offset_lt (j : SecField) : j.offset < 7 := by cases j <;> decide

theorem DispField.offset_lt (j : DispField) : j.offset < 3 := by cases j <;> decide

theorem exists_secField {n : Nat} (h : n < 7) : ∃ j : SecField, j.offset = n := by
  interval_cases n
  exacts [⟨.b0, rfl⟩, ⟨.b1, rfl⟩, ⟨.b2, rfl⟩, ⟨.a1, rfl⟩, ⟨.a2, rfl⟩, ⟨.z1, rfl⟩, ⟨.z2, rfl⟩]

theorem exists_dispField {n : Nat} (h : n < 3) : ∃ j : DispField, j.offset = n := by
  interval_cases n
  exacts [⟨.freq, rfl⟩, ⟨.c, rfl⟩, ⟨.z, rfl⟩]

@[simp] theorem secFieldAt_offset (j : SecField) : secFieldAt j.offset = some j := by cases j <;> rfl

@[simp] theorem dispFieldAt_offset (j : DispField) : dispFieldAt j.offset = some j := by cases j <;> rfl

theorem offset_of_secFieldAt {n : Nat} {j : SecField} (h : secFieldAt n = some j) : j.offset = n := by
  unfold secFieldAt at h
  split at h <;> cases h <;> rfl

theorem offset_of_dispFieldAt {n : Nat} {j : DispField} (h : dispFieldAt n = some j) : j.offset = n := by
  unfold dispFieldAt at h
  split at h <;> cases h <;> rfl

/-- The address of the element found at an address is that address. -/
theorem addr_of_regNameAt {a : Nat} {r : RegName} (h : regNameAt a = some r) : r.addr = a := by
  have hsec {mk : Nat → SecField → RegName} {base : Nat} (haddr : ∀ sec j, (mk sec j).addr = base + 8 * sec + j.offset)
      (hbase : base ≤ a) (hmod : base % 8 = 0) (hr : (secFieldAt (a % 8)).map (mk ((a - base) / 8)) = some r) :
      r.addr = a := by
    obtain ⟨j, hj, rfl⟩ := Option.map_eq_some_iff.mp hr
    rw [haddr, offset_of_secFieldAt hj]
    omega
  unfold regNameAt at h
  split at h
  · split at h <;> cases h <;> rfl
  · split_ifs at h
    · exact hsec (fun _ _ => rfl) (by omega) (by decide) h
    · exact hsec (fun _ _ => rfl) (by omega) (by decide) h
    · exact hsec (fun _ _ => rfl) (by omega) (by decide) h
    · exact hsec (fun _ _ => rfl) (by omega) (by decide) h
    · obtain ⟨j, hj, rfl⟩ := Option.map_eq_some_iff.mp h
      rw [RegName.addr, offset_of_dispFieldAt hj]
      omega
    · cases h
      rw [RegName.addr]
      omega

/-! ### Reads -/

/-- The four banks of sections, with their base addresses (R39). -/
def State.SectionBank (s : State) (base : Nat) (bank : List Biquad) : Prop :=
  (base = 0x100 ∧ bank = s.shield) ∨ (base = 0x200 ∧ bank = s.eqa) ∨ (base = 0x300 ∧ bank = s.eqb) ∨
    (base = 0x400 ∧ bank = s.dcb)

/-- A field of a section reads as that field (R39, R81). -/
theorem regRead_section {s : State} {base sec : Nat} {bank : List Biquad} {b : Biquad}
    (hbank : s.SectionBank base bank) (hsec : sec < 32) (hb : bank[sec]? = some b) (j : SecField) :
    regRead s (base + 8 * sec + j.offset) = some (secFieldValue b j) := by
  have hj := j.offset_lt
  have hmod (k : Nat) : (8 * k + 8 * sec + j.offset) % 8 = j.offset := by omega
  unfold regRead regNameAt
  rcases hbank with ⟨rfl, rfl⟩ | ⟨rfl, rfl⟩ | ⟨rfl, rfl⟩ | ⟨rfl, rfl⟩
  · rw [if_neg (by omega), if_pos (by omega), hmod 0x20, show (0x100 + 8 * sec + j.offset - 0x100) / 8 = sec by omega]
    simp [regValue, hb]
  · rw [if_neg (by omega), if_neg (by omega), if_pos (by omega), hmod 0x40,
      show (0x200 + 8 * sec + j.offset - 0x200) / 8 = sec by omega]
    simp [regValue, hb]
  · rw [if_neg (by omega), if_neg (by omega), if_neg (by omega), if_pos (by omega), hmod 0x60,
      show (0x300 + 8 * sec + j.offset - 0x300) / 8 = sec by omega]
    simp [regValue, hb]
  · rw [if_neg (by omega), if_neg (by omega), if_neg (by omega), if_neg (by omega), if_pos (by omega), hmod 0x80,
      show (0x400 + 8 * sec + j.offset - 0x400) / 8 = sec by omega]
    simp [regValue, hb]

/-- A field of a dispersive stage reads as that field (R40, R81). -/
theorem regRead_stage {s : State} {k : Nat} {d : DispStage} (hk : k < 64) (hd : s.disp[k]? = some d) (j : DispField) :
    regRead s (0x500 + 4 * k + j.offset) = some (dispFieldValue d j) := by
  have hj := j.offset_lt
  unfold regRead regNameAt
  rw [if_neg (by omega), if_neg (by omega), if_neg (by omega), if_neg (by omega), if_neg (by omega), if_pos (by omega),
    show (0x500 + 4 * k + j.offset) % 4 = j.offset by omega,
    show (0x500 + 4 * k + j.offset - 0x500) / 4 = k by omega]
  simp [regValue, hd]

/-- A ring word reads as that word (R43, R81). -/
theorem regRead_ring (s : State) (i : Fin 16) : regRead s (0x600 + i.val) = some (ringRead s.mem i) := by
  unfold regRead regNameAt
  rw [if_neg (by omega), if_neg (by omega), if_neg (by omega), if_neg (by omega), if_neg (by omega), if_neg (by omega),
    if_pos (by omega), Nat.add_sub_cancel_left]
  simp [regValue]

section Shape

variable {s : State} (hs : s.shapeOk = true)
include hs

/-- The banks are short enough for their address ranges. -/
theorem section_lt {base sec : Nat} {bank : List Biquad} {b : Biquad} (hbank : s.SectionBank base bank)
    (hb : bank[sec]? = some b) : sec < 32 := by
  obtain ⟨hlen, -⟩ := List.getElem?_eq_some_iff.mp hb
  obtain ⟨hshield, heqa, heqb, hdcb, -⟩ := shapeOk_iff.mp hs
  have ha : s.par.eqN .A ≤ 12 := EqCount.toNat_le _
  have hb : s.par.eqN .B ≤ 12 := EqCount.toNat_le _
  rcases hbank with ⟨-, rfl⟩ | ⟨-, rfl⟩ | ⟨-, rfl⟩ | ⟨-, rfl⟩ <;> omega

theorem stage_lt {k : Nat} {d : DispStage} (hd : s.disp[k]? = some d) : k < 64 := by
  obtain ⟨hlen, -⟩ := List.getElem?_eq_some_iff.mp hd
  obtain ⟨-, -, -, -, hdisp⟩ := shapeOk_iff.mp hs
  omega

theorem isSome_regRead_section {base sec j : Nat} {bank : List Biquad} (hbank : s.SectionBank base bank)
    (hsec : sec < bank.length) (hj : j < 7) : (regRead s (base + 8 * sec + j)).isSome = true := by
  obtain ⟨f, rfl⟩ := exists_secField hj
  have hb := List.getElem?_eq_getElem hsec
  rw [regRead_section hbank (section_lt hs hbank hb) hb]
  rfl

end Shape

/-- Settles O15: the single registers read by definition, the banks by `regRead_section` and `regRead_stage`. -/
theorem registerMapValues : Obligations.RegisterMapValues := by
  intro s hs
  refine ⟨rfl, rfl, rfl, rfl, rfl, rfl, fun base bank hbank sec b hb => ?_, fun k d hd => ?_, regRead_ring s⟩
  · exact List.map_congr_left (l := [SecField.b0, .b1, .b2, .a1, .a2, .z1, .z2])
      fun j _ => regRead_section hbank (section_lt hs hbank hb) hb j
  · exact List.map_congr_left (l := [DispField.freq, .c, .z]) fun j _ => regRead_stage (stage_lt hs hd) hd j

theorem lt_length_of_map_getElem? {α : Type} {l : List α} {n : Nat} {f : α → Word} {v : Word}
    (h : l[n]?.map f = some v) : n < l.length := by
  obtain ⟨x, hx, -⟩ := Option.map_eq_some_iff.mp h
  exact (List.getElem?_eq_some_iff.mp hx).1

/-- Settles O14: a mapped address is the address of its element, and each element's read says when it is there. -/
theorem registerMapDomain : Obligations.RegisterMapDomain := by
  intro s a hs
  obtain ⟨hshield, heqa, heqb, hdcb, hdisp⟩ := shapeOk_iff.mp hs
  constructor
  · intro h
    obtain ⟨v, hread⟩ := Option.isSome_iff_exists.mp h
    obtain ⟨r, hr, hv⟩ := Option.bind_eq_some_iff.mp hread
    obtain rfl := addr_of_regNameAt hr
    cases r with
    | shield sec j =>
      have hlen := lt_length_of_map_getElem? hv
      exact .inr (.inr (.inl ⟨sec, j.offset, by omega, j.offset_lt, rfl⟩))
    | eqa sec j =>
      have hlen := lt_length_of_map_getElem? hv
      exact .inr (.inr (.inr (.inl ⟨sec, j.offset, by omega, j.offset_lt, rfl⟩)))
    | eqb sec j =>
      have hlen := lt_length_of_map_getElem? hv
      exact .inr (.inr (.inr (.inr (.inl ⟨sec, j.offset, by omega, j.offset_lt, rfl⟩))))
    | dcb sec j =>
      have hlen := lt_length_of_map_getElem? hv
      exact .inr (.inr (.inr (.inr (.inr (.inl ⟨sec, j.offset, by omega, j.offset_lt, rfl⟩)))))
    | disp k j =>
      have hlen := lt_length_of_map_getElem? hv
      exact .inr (.inr (.inr (.inr (.inr (.inr (.inl ⟨k, j.offset, by omega, j.offset_lt, rfl⟩))))))
    | ring i =>
      simp only [regValue] at hv
      split at hv
      · exact .inr (.inr (.inr (.inr (.inr (.inr (.inr ⟨i, ‹_›, rfl⟩))))))
      · cases hv
    | eqNA | eqNB | nDisp | ringSize => exact .inr (.inl (by decide))
    | _ => exact .inl (by decide)
  · rintro (h | h | ⟨sec, j, hsec, hj, rfl⟩ | ⟨sec, j, hsec, hj, rfl⟩ | ⟨sec, j, hsec, hj, rfl⟩ |
      ⟨sec, j, hsec, hj, rfl⟩ | ⟨k, j, hk, hj, rfl⟩ | ⟨i, hi, rfl⟩)
    · interval_cases a <;> rfl
    · obtain ⟨hlo, hhi⟩ := h
      interval_cases a <;> rfl
    · exact isSome_regRead_section hs (.inl ⟨rfl, rfl⟩) (by omega) hj
    · exact isSome_regRead_section hs (.inr (.inl ⟨rfl, rfl⟩)) (by omega) hj
    · exact isSome_regRead_section hs (.inr (.inr (.inl ⟨rfl, rfl⟩))) (by omega) hj
    · exact isSome_regRead_section hs (.inr (.inr (.inr ⟨rfl, rfl⟩))) (by omega) hj
    · obtain ⟨f, rfl⟩ := exists_dispField hj
      have hd := List.getElem?_eq_getElem (hdisp.symm ▸ hk)
      rw [regRead_stage (stage_lt hs hd) hd]
      rfl
    · rw [regRead_ring s ⟨i, hi⟩]
      rfl

end Sys2Proof.Machine

/-! SUPPORT. Every step keeps the second half of R47(4) (spec/10_state.md): in state Ready every coefficient set is the
one a full recomputation derives from the configuration. CONFIGURE commits a full recomputation (R348), a SET_PROFILE in
state Ready commits the profile half of one at the same sample rate, and everything else leaves both sides alone. -/

namespace Sys2Proof.Machine

theorem commitRate_holds (r : RateSet) (s : State) : (commitRate r s).HoldsRate r :=
  ⟨bankCoeffs_commitBank _ _, bankCoeffs_commitBank _ _, bankCoeffs_commitBank _ _, rfl, rfl, rfl⟩

theorem commitProfile_holds (q : ProfileSet) (s : State) : (commitProfile q s).HoldsProfile q :=
  ⟨bankCoeffs_commitBank _ _, rfl, dispCoeffs_commitDisp _ _, rfl, rfl, rfl, rfl, rfl, rfl, rfl⟩

theorem State.HoldsRate.of_same {s t : State} {r : RateSet} (h : s.HoldsRate r) (hsame : SameRate s t) :
    t.HoldsRate r :=
  ⟨hsame.eqa.trans h.eqa, hsame.eqb.trans h.eqb, hsame.dcb.trans h.dcb, hsame.blendAtt.trans h.blendAtt,
    hsame.blendRel.trans h.blendRel, hsame.fadeInc.trans h.fadeInc⟩

/-- `t` and `s` agree on what the second half of R47(4) depends on: the configuration, the coefficients and the three
tuning registers that no calibration command writes. -/
structure SameDerivation (s t : State) : Prop where
  blockState : t.blockState = s.blockState
  par : t.par = s.par
  fs : t.fs = s.fs
  profile : s.blockState = .ready → t.profile = s.profile ∧ t.formula = s.formula
  rate : SameRate s t
  shape : SameShape s t
  tuning : t.tuning.dcBias = s.tuning.dcBias ∧ t.tuning.outScale = s.tuning.outScale ∧
    t.tuning.msScale = s.tuning.msScale

theorem State.Derived.of_same {s t : State} (h : s.Derived) (hsame : SameDerivation s t) : t.Derived := by
  intro ht
  have hs := hsame.blockState.symm.trans ht
  obtain ⟨r, q, hset, hr, hq⟩ := h hs
  obtain ⟨hprofile, hformula⟩ := hsame.profile hs
  obtain ⟨hdc, hout, hms⟩ := hsame.tuning
  have hshape := hsame.shape
  refine ⟨r, q, ?_, hr.of_same hsame.rate, ?_⟩
  · rw [hsame.par, hsame.fs, hprofile, hformula]
    exact hset
  · exact ⟨hshape.shield.trans hq.shield, hshape.shieldNorm.trans hq.shieldNorm, hshape.disp.trans hq.disp,
      hshape.azDelay.trans hq.azDelay, hshape.azInt.trans hq.azInt, hshape.azFrac.trans hq.azFrac,
      hshape.azCoeff.trans hq.azCoeff, hdc.trans hq.dcBias, hout.trans hq.outScale, hms.trans hq.msScale⟩

/-- Where a command keeps all coefficients and settings, it keeps all that R47(4) depends on. -/
theorem sameDerivation_of_coeffs {s t : State} (hstate : t.blockState = s.blockState) (hpar : t.par = s.par)
    (hset : SameSettings s t) (hco : SameCoeffs s t) : SameDerivation s t :=
  ⟨hstate, hpar, hset.fs, fun _ => ⟨hset.profile, hset.formula⟩, hco.rate, hco.shape, by simp [hco.tuning]⟩

theorem SameDerivation.refl (s : State) : SameDerivation s s :=
  ⟨rfl, rfl, rfl, fun _ => ⟨rfl, rfl⟩, .refl s, .refl s, rfl, rfl, rfl⟩

theorem Effect.keepsDerived {i : Instr} {s u : State} (hd : s.Derived) (h : Effect i s u) : u.Derived := by
  cases h with
  | configure _ hset =>
    exact fun _ => ⟨_, _, hset, { commitRate_holds _ s with }, { commitProfile_holds _ s with }⟩
  | switchProfile _ _ hready hset =>
    intro _
    obtain ⟨r, _, hfull, hr, -⟩ := hd hready
    exact ⟨r, _, recomputeFull_some.mpr ⟨(recomputeFull_some.mp hfull).1, hset⟩, { hr with },
      { commitProfile_holds _ s with }⟩
  | latchProfile _ _ hsame =>
    exact hd.of_same ⟨rfl, rfl, rfl, hsame, { SameRate.refl s with }, { SameShape.refl s with }, rfl, rfl, rfl⟩
  | reset =>
    refine hd.of_same (sameDerivation_of_coeffs rfl rfl ⟨rfl, rfl, rfl, rfl, rfl⟩ ⟨?_, ?_, rfl⟩)
    · exact ⟨bankCoeffs_bankReset _, bankCoeffs_bankReset _, bankCoeffs_bankReset _, rfl, rfl, rfl⟩
    · exact ⟨bankCoeffs_bankReset _, rfl, dispCoeffs_apReset _, rfl, rfl, rfl, rfl⟩
  | process | process2 =>
    exact hd.of_same (sameDerivation_of_coeffs (blockState_of_kept (by simp)) (sameHost_of_kept (by simp)).par
      (sameSettings_of_kept (by simp)) (sameCoeffs_of_kept (by simp)))
  | nop => exact hd
  | rdReg =>
    exact hd.of_same { SameDerivation.refl s with rate := { SameRate.refl s with }, shape := { SameShape.refl s with } }
  | calibrate hput =>
    exact hd.of_same ⟨rfl, rfl, rfl, fun _ => ⟨rfl, rfl⟩, { SameRate.refl s with }, { SameShape.refl s with },
      calPut_keeps hput _ _⟩

/-- Settles O47, by `Effect.keepsDerived` for the commands. -/
theorem stepKeepsDerived : Obligations.StepKeepsDerived := by
  intro s t hd h
  rcases step_effect h with ⟨-, rest, rfl⟩ | hidle | ⟨i, rest, w, u, -, hu, rfl⟩
  · intro hready
    cases hready
  · exact hd.of_same (sameDerivation_of_coeffs hidle.blockState hidle.par hidle.sameSettings hidle.sameCoeffs)
  · have hlatched : (s.latched rest w).Derived := hd.of_same
      { SameDerivation.refl s with rate := { SameRate.refl s with }, shape := { SameShape.refl s with } }
    exact (hu.keepsDerived hlatched).of_same
      { SameDerivation.refl u with rate := { SameRate.refl u with }, shape := { SameShape.refl u with } }

end Sys2Proof.Machine

/-! SUPPORT. Order and sign of binary64 values (spec/00_scope.md R12, R13), as far as the ranges of R47 need them: the
rounding is monotone, so a sum with a number that is not negative is not below the other operand, and a product with a
number of [0, 1] is no larger than the other factor. -/

namespace Sys2Proof.Machine

/-! ### Magnitudes and patterns -/

theorem F64.mag_eq_pack (w : Word) : F64.mag w = F64.mag (F64.pack false (F64.pat w)) := by
  unfold F64.mag
  rw [F64.pat_pack _ (F64.pat_lt w)]

theorem F64.isFinite_iff {w : Word} : F64.isFinite w = true ↔ F64.pat w < F64.infPat := by simp [F64.isFinite]

theorem F64.isFinite_pack (b : Bool) {p : Nat} (hp : p < 2 ^ 63) :
    F64.isFinite (F64.pack b p) = true ↔ p < F64.infPat := by rw [F64.isFinite_iff, F64.pat_pack b hp]

theorem F64.isNaN_of_isFinite {w : Word} (h : F64.isFinite w = true) : F64.isNaN w = false := by
  rw [F64.isFinite_iff] at h
  simp only [F64.isNaN, decide_eq_false_iff_not]
  omega

theorem F64.isInf_of_isFinite {w : Word} (h : F64.isFinite w = true) : F64.isInf w = false := by
  rw [F64.isFinite_iff] at h
  simp only [F64.isInf, decide_eq_false_iff_not]
  omega

theorem F64.isNaN_pack_of_le (b : Bool) {p : Nat} (hp : p ≤ F64.infPat) : F64.isNaN (F64.pack b p) = false := by
  have h63 : p < 2 ^ 63 := Nat.lt_of_le_of_lt hp (by decide)
  simp only [F64.isNaN, F64.pat_pack b h63, decide_eq_false_iff_not]
  omega

/-- The magnitude of a finite number leaves room below the bound of the rounding. -/
theorem F64.mag_mul_lt {w : Word} {j : Nat} (hj : j ≤ 2 ^ 15) (h : F64.isFinite w = true) :
    F64.mag w * 2 ^ j < 2 ^ 2 ^ 16 := by
  obtain ⟨s, e, hs, he, hm⟩ := F64.exists_mag_eq (F64.isFinite_iff.mp h)
  rw [F64.mag_eq_pack, hm, Nat.mul_assoc, ← Nat.pow_add]
  calc s * 2 ^ (e + j) < 2 ^ 53 * 2 ^ (e + j) := Nat.mul_lt_mul_of_pos_right hs (Nat.two_pow_pos _)
    _ = 2 ^ (53 + (e + j)) := (Nat.pow_add 2 53 _).symm
    _ ≤ 2 ^ 2 ^ 16 := Nat.pow_le_pow_right (by decide) (by omega)

/-- A finite number is what its magnitude rounds to. -/
theorem F64.roundMag_mag {w : Word} {j : Nat} (hj : j ≤ 2 ^ 15) (h : F64.isFinite w = true) :
    F64.roundMag (F64.mag w * 2 ^ j) j false = F64.pat w := by
  have hlt := F64.mag_mul_lt hj h
  rw [F64.mag_eq_pack] at hlt ⊢
  exact F64.roundMag_exact j false (F64.isFinite_iff.mp h) hlt

theorem F64.mag_add_lt {a b : Word} (ha : F64.isFinite a = true) (hb : F64.isFinite b = true) :
    F64.mag a + F64.mag b < 2 ^ 2 ^ 16 := by
  rcases Nat.le_total (F64.mag a) (F64.mag b) with hle | hle
  · exact Nat.lt_of_le_of_lt (by omega) (F64.mag_mul_lt (j := 1) (by decide) hb)
  · exact Nat.lt_of_le_of_lt (by omega) (F64.mag_mul_lt (j := 1) (by decide) ha)

/-- Magnitudes are ordered as their patterns are. -/
theorem F64.mag_mono {p q : Nat} (hq : q < 2 ^ 63) (h : p ≤ q) :
    F64.mag (F64.pack false p) ≤ F64.mag (F64.pack false q) := by
  rw [F64.mag_of_pat p false (by omega), F64.mag_of_pat q false hq]
  have hdiv : p / 2 ^ 52 ≤ q / 2 ^ 52 := Nat.div_le_div_right h
  rcases Nat.eq_or_lt_of_le hdiv with he | hlt
  · rw [he]
    split
    · exact h
    · exact Nat.mul_le_mul_right _ (by omega)
  · rw [if_neg (show q / 2 ^ 52 ≠ 0 by omega)]
    have hbig : 2 ^ 52 * 2 ^ (q / 2 ^ 52 - 1) ≤ (q % 2 ^ 52 + 2 ^ 52) * 2 ^ (q / 2 ^ 52 - 1) :=
      Nat.mul_le_mul_right _ (by omega)
    refine Nat.le_trans ?_ hbig
    split
    · exact Nat.le_trans (show p ≤ 2 ^ 52 by omega) (Nat.le_mul_of_pos_right _ (Nat.two_pow_pos _))
    · calc (p % 2 ^ 52 + 2 ^ 52) * 2 ^ (p / 2 ^ 52 - 1) ≤ 2 ^ 53 * 2 ^ (p / 2 ^ 52 - 1) :=
          Nat.mul_le_mul_right _ (by omega)
        _ = 2 ^ 52 * 2 ^ (p / 2 ^ 52 - 1 + 1) := by rw [Nat.pow_succ 2 (p / 2 ^ 52 - 1)]; omega
        _ ≤ 2 ^ 52 * 2 ^ (q / 2 ^ 52 - 1) := Nat.mul_le_mul_left _ (Nat.pow_le_pow_right (by decide) (by omega))

/-! ### Comparisons -/

theorem F64.le_iff {a b : Word} : F64.le a b = true ↔
    F64.isNaN a = false ∧ F64.isNaN b = false ∧ F64.value a ≤ F64.value b := by
  simp [F64.le, and_assoc]

theorem F64.lt_iff {a b : Word} : F64.lt a b = true ↔
    F64.isNaN a = false ∧ F64.isNaN b = false ∧ F64.value a < F64.value b := by
  simp [F64.lt, and_assoc]

theorem F64.le_refl {a : Word} (h : F64.isFinite a = true) : F64.le a a = true :=
  F64.le_iff.mpr ⟨F64.isNaN_of_isFinite h, F64.isNaN_of_isFinite h, Int.le_refl _⟩

@[simp] theorem F64.value_zero : F64.value Lit.zero = 0 := by decide +kernel

@[simp] theorem F64.value_one : F64.value Lit.one = 2 ^ 1074 := by decide +kernel

theorem F64.value_of_not_neg {w : Word} (h : F64.isNeg w = false) : F64.value w = F64.mag w := by simp [F64.value, h]

theorem F64.le_zero_of_not_neg {w : Word} (hfin : F64.isFinite w = true) (h : F64.isNeg w = false) :
    F64.le Lit.zero w = true := by
  refine F64.le_iff.mpr ⟨by decide, F64.isNaN_of_isFinite hfin, ?_⟩
  rw [F64.value_zero, F64.value_of_not_neg h]
  exact Int.natCast_nonneg _

theorem F64.isNeg_of_lt_zero {w : Word} (h : F64.lt Lit.zero w = true) : F64.isNeg w = false := by
  obtain ⟨-, -, hv⟩ := F64.lt_iff.mp h
  rw [F64.value_zero] at hv
  unfold F64.value at hv
  split at hv
  · omega
  · exact Bool.eq_false_iff.mpr ‹_›

/-! ### The unit interval -/

theorem inUnit_iff {w : Word} : inUnit w = true ↔ F64.isNaN w = false ∧ 0 ≤ F64.value w ∧ F64.value w ≤ 2 ^ 1074 := by
  have h0 : F64.isNaN Lit.zero = false := by decide
  have h1 : F64.isNaN Lit.one = false := by decide
  simp only [inUnit, Bool.and_eq_true, F64.le_iff, F64.value_zero, F64.value_one, h0, h1, true_and]
  tauto

/-- A value whose sign is plus, or that is a zero. -/
theorem F64.value_eq_mag {w : Word} (h : 0 ≤ F64.value w) : F64.value w = F64.mag w := by
  unfold F64.value at h ⊢
  split_ifs at h ⊢ <;> omega

theorem isFinite_of_inUnit {w : Word} (h : inUnit w = true) : F64.isFinite w = true := by
  obtain ⟨hnan, h0, h1⟩ := inUnit_iff.mp h
  by_contra hfin
  have hpat : F64.pat w = F64.infPat := by
    rw [F64.isFinite_iff] at hfin
    simp only [F64.isNaN, decide_eq_false_iff_not] at hnan
    omega
  rw [F64.value_eq_mag h0, F64.mag_eq_pack, hpat] at h1
  exact absurd h1 (by decide +kernel)

/-! ### Minimum and maximum -/

theorem F64.min_cases {a b : Word} (ha : F64.isNaN a = false) (hb : F64.isNaN b = false) :
    (F64.min a b = a ∧ F64.value a ≤ F64.value b) ∨ (F64.min a b = b ∧ F64.value b ≤ F64.value a) := by
  have hab : F64.lt a b = decide (F64.value a < F64.value b) := by simp [F64.lt, ha, hb]
  have hba : F64.lt b a = decide (F64.value b < F64.value a) := by simp [F64.lt, ha, hb]
  simp only [F64.min, ha, hb, hab, hba, Bool.false_eq_true, if_false, decide_eq_true_eq]
  split_ifs <;> simp <;> omega

theorem F64.max_cases {a b : Word} (ha : F64.isNaN a = false) (hb : F64.isNaN b = false) :
    (F64.max a b = a ∧ F64.value b ≤ F64.value a) ∨ (F64.max a b = b ∧ F64.value a ≤ F64.value b) := by
  have hab : F64.lt a b = decide (F64.value a < F64.value b) := by simp [F64.lt, ha, hb]
  have hba : F64.lt b a = decide (F64.value b < F64.value a) := by simp [F64.lt, ha, hb]
  simp only [F64.max, ha, hb, hab, hba, Bool.false_eq_true, if_false, decide_eq_true_eq]
  split_ifs <;> simp <;> omega

/-- What SET_PROFILE stores as the bias lies in [0, 1] (R347). -/
theorem clampedBias_inUnit {b : Word} (h : F64.isFinite b = true) : inUnit (clampedBias b) = true := by
  have h0 : F64.isNaN Lit.zero = false := by decide
  have h1 : F64.isNaN Lit.one = false := by decide
  have hb := F64.isNaN_of_isFinite h
  have hmax : F64.isNaN (F64.max b Lit.zero) = false ∧ 0 ≤ F64.value (F64.max b Lit.zero) := by
    rcases F64.max_cases hb h0 with ⟨he, hle⟩ | ⟨he, -⟩
    · rw [he]
      exact ⟨hb, by rwa [F64.value_zero] at hle⟩
    · rw [he, F64.value_zero]
      exact ⟨h0, le_refl _⟩
  rw [inUnit_iff, clampedBias, clamp]
  rcases F64.min_cases hmax.1 h1 with ⟨he, hle⟩ | ⟨he, -⟩
  · rw [F64.value_one] at hle
    exact he.symm ▸ ⟨hmax.1, hmax.2, hle⟩
  · rw [he, F64.value_one]
    exact ⟨h1, by positivity, le_refl _⟩

/-! ### Arithmetic -/

/-- A sum with a number that is not negative is a number, and not below the other operand, which is not negative
either. -/
theorem F64.add_ge {a b : Word} (ha : F64.isFinite a = true) (hb : F64.isFinite b = true) (ha0 : 0 ≤ F64.value a)
    (hb0 : 0 ≤ F64.value b) : F64.isNaN (F64.add a b) = false ∧ F64.value a ≤ F64.value (F64.add a b) := by
  simp only [F64.add, F64.isNaN_of_isFinite ha, F64.isNaN_of_isFinite hb, F64.isInf_of_isFinite ha,
    F64.isInf_of_isFinite hb, Bool.or_self, Bool.false_eq_true, if_false]
  split
  · rename_i hz
    refine ⟨F64.isNaN_pack_of_le _ (Nat.zero_le _), ?_⟩
    have hmag : F64.mag (F64.pack (F64.isNeg a && F64.isNeg b) 0) = 0 := by
      rw [F64.mag_of_pat _ _ (by decide)]
      rfl
    have hval : F64.value (F64.pack (F64.isNeg a && F64.isNeg b) 0) = 0 := by
      rw [F64.value, hmag]
      split <;> rfl
    omega
  · have hsum : (F64.value a + F64.value b).natAbs = F64.mag a + F64.mag b := by
      rw [F64.value_eq_mag ha0, F64.value_eq_mag hb0]
      omega
    have hlt := F64.roundMag_lt (F64.mag a + F64.mag b) 0 false
    have hmono := F64.roundMag_mono 0 (F64.mag_add_lt ha hb) (Nat.le_add_right (F64.mag a) (F64.mag b))
    have hexact := F64.roundMag_mag (Nat.zero_le _) ha
    rw [Nat.pow_zero, Nat.mul_one] at hexact
    rw [hexact] at hmono
    rw [hsum, decide_eq_false (by omega), F64.value_of_not_neg (F64.isNeg_pack _ hlt), F64.value_eq_mag ha0,
      Int.ofNat_le]
    refine ⟨F64.isNaN_pack_of_le _ (F64.roundMag_le _ _ _), ?_⟩
    calc F64.mag a = F64.mag (F64.pack false (F64.pat a)) := F64.mag_eq_pack a
      _ ≤ _ := F64.mag_mono hlt hmono

/-- A product with a number of [0, 1] is finite: it is no larger than the other factor. -/
theorem F64.mul_inUnit_finite {x g : Word} (hx : F64.isFinite x = true) (hg : inUnit g = true) :
    F64.isFinite (F64.mul x g) = true := by
  have hgfin := isFinite_of_inUnit hg
  obtain ⟨-, h0, h1⟩ := inUnit_iff.mp hg
  rw [F64.value_eq_mag h0] at h1
  have hmag : F64.mag g ≤ 2 ^ 1074 := by exact_mod_cast h1
  simp only [F64.mul, F64.isNaN_of_isFinite hx, F64.isNaN_of_isFinite hgfin, F64.isInf_of_isFinite hx,
    F64.isInf_of_isFinite hgfin, Bool.or_self, Bool.false_eq_true, if_false]
  rw [F64.isFinite_pack _ (F64.roundMag_lt _ _ _)]
  refine Nat.lt_of_le_of_lt ?_ (F64.isFinite_iff.mp hx)
  rw [← F64.roundMag_mag (j := 1074) (by decide) hx]
  exact F64.roundMag_mono 1074 (F64.mag_mul_lt (by decide) hx) (Nat.mul_le_mul_left _ hmag)

theorem F64.isNeg_nan : F64.isNeg F64.nan = false := by decide

/-- A product of operands without a minus sign has none. -/
theorem F64.isNeg_mul {a b : Word} (ha : F64.isNeg a = false) (hb : F64.isNeg b = false) :
    F64.isNeg (F64.mul a b) = false := by
  unfold F64.mul
  split_ifs
  · exact F64.isNeg_nan
  · exact F64.isNeg_nan
  · simp [ha, hb, F64.isNeg_pack false (show F64.infPat < 2 ^ 63 by decide)]
  · rw [F64.isNeg_pack _ (F64.roundMag_lt _ _ _), ha, hb]
    rfl

/-- A quotient of operands without a minus sign has none. -/
theorem F64.isNeg_div {a b : Word} (ha : F64.isNeg a = false) (hb : F64.isNeg b = false) :
    F64.isNeg (F64.div a b) = false := by
  have hpack {p : Nat} (hp : p < 2 ^ 63) : F64.isNeg (F64.pack (F64.isNeg a != F64.isNeg b) p) = false := by
    rw [F64.isNeg_pack _ hp, ha, hb]
    rfl
  unfold F64.div
  split_ifs
  · exact F64.isNeg_nan
  · exact F64.isNeg_nan
  · exact hpack (by decide)
  · exact hpack (by decide)
  · exact F64.isNeg_nan
  · exact hpack (by decide)
  · exact hpack (F64.roundMag_lt _ _ _)

theorem Milliseconds.isNeg_val (m : Milliseconds) : F64.isNeg m.val = false := by
  have h := m.positive.2
  simp only [F64.isNeg, decide_eq_false_iff_not]
  omega

/-- The rates that CONFIGURE accepts (R342). -/
theorem rateOk_iff {fs : Word} : rateOk fs = true ↔ finitePositive fs = true := by
  have h0 : F64.isNaN Lit.zero = false := by decide
  simp only [rateOk, finitePositive, Bool.and_eq_true, Bool.not_eq_true']
  refine and_congr_right fun hfin => ?_
  simp [F64.le, F64.lt, h0, F64.isNaN_of_isFinite hfin]

/-- The fade increment of a positive rate is not negative (R312, R313). -/
theorem fadeIncrement_nonneg {P : Params} {fs : Word} (hfs : finitePositive fs = true)
    (hfin : F64.isFinite (fadeIncrement P fs) = true) : F64.le Lit.zero (fadeIncrement P fs) = true := by
  refine F64.le_zero_of_not_neg hfin (F64.isNeg_div (by decide) (F64.isNeg_mul (Milliseconds.isNeg_val _) ?_))
  exact F64.isNeg_of_lt_zero (Bool.and_eq_true_iff.mp hfs).2

/-! ### The fade -/

/-- The fade gain after a sample: still in [0, 1], and not below what it was (R47(2), R312). -/
theorem fadeGain_next {g inc : Word} (hg : inUnit g = true) (hinc : F64.isFinite inc = true)
    (hinc0 : F64.le Lit.zero inc = true) :
    inUnit (F64.min Lit.one (F64.add g inc)) = true ∧ F64.le g (F64.min Lit.one (F64.add g inc)) = true := by
  have hone : F64.isNaN Lit.one = false := by decide
  obtain ⟨hnan, h0, h1⟩ := inUnit_iff.mp hg
  obtain ⟨-, -, hi0⟩ := F64.le_iff.mp hinc0
  rw [F64.value_zero] at hi0
  obtain ⟨hsum, hge⟩ := F64.add_ge (isFinite_of_inUnit hg) hinc h0 hi0
  rcases F64.min_cases hone hsum with ⟨he, -⟩ | ⟨he, hle⟩
  · rw [he, inUnit_iff, F64.le_iff, F64.value_one]
    exact ⟨⟨hone, by positivity, le_refl _⟩, hnan, hone, h1⟩
  · rw [F64.value_one] at hle
    rw [he, inUnit_iff, F64.le_iff]
    exact ⟨⟨hsum, h0.trans hge, hle⟩, hnan, hsum, hge⟩

end Sys2Proof.Machine

/-! SUPPORT. The invariant of R47 (spec/10_state.md) with the shapes of R39, R40 and R91. `State.Sound` is the invariant
register by register, so that an update of some registers is checked at those registers alone. -/

namespace Sys2Proof.Machine

/-! ### The ring memory (R91) -/

theorem readBytes_eq_lanes {m : Memory} {a : Nat} (l : List Byte)
    (h : ∀ k (hk : k < l.length), Memory.readByte m (a + k) = l[k]) : Memory.readBytes m l.length a = l := by
  induction l generalizing a with
  | nil => rfl
  | cons b rest ih =>
    have hhead : Memory.readByte m a = b := h 0 (by simp)
    have htail : Memory.readBytes m rest.length (a + 1) = rest := ih fun k hk => by
      rw [Nat.add_assoc, Nat.add_comm 1]
      exact h (k + 1) (by simpa using hk)
    simp only [List.length_cons, Memory.readBytes, hhead, htail]

theorem readBytes_congr {m m' : Memory} {n a : Nat}
    (h : ∀ b, a ≤ b → b < a + n → Memory.readByte m b = Memory.readByte m' b) :
    Memory.readBytes m n a = Memory.readBytes m' n a := by
  induction n generalizing a with
  | zero => rfl
  | succ n ih =>
    have hhead := h a (Nat.le_refl a) (by omega)
    have htail := ih (a := a + 1) fun b hlo hhi => h b (by omega) (by omega)
    simp only [Memory.readBytes, hhead, htail]

/-- A ring word reads back as written, and every other one as before. -/
theorem ringRead_ringWrite {m : Memory} (hm : Memory.wf m = true) (i j : Fin 16) (v : Word) :
    ringRead (ringWrite m i v) j = if j = i then v else ringRead m j := by
  split
  · rename_i he
    subst he
    have hread : Memory.readBytes (ringWrite m j v) (toLanes 8 v.toNat).length (ringAddr j) = toLanes 8 v.toNat :=
      readBytes_eq_lanes _ fun k hk => by
        unfold ringWrite
        rw [readByte_writeBytes _ _ _ _ hm, dif_pos (by omega)]
        simp
    rw [toLanes_length] at hread
    rw [ringRead, hread, ofLanes_toLanes, Nat.mod_eq_of_lt (by exact v.isLt), BitVec.ofNat_toNat, BitVec.setWidth_eq]
  · rename_i hne
    have hij : j.val ≠ i.val := fun h => hne (Fin.ext h)
    rw [ringRead, ringRead, readBytes_congr fun b hlo hhi => readByte_ringWrite_of_outside m i v b hm ?_]
    unfold ringAddr at *
    omega

theorem mem_writeBytes {m : Memory} {a : Nat} {l : List Byte} {d : Host.Cell} (h : d ∈ Memory.writeBytes m a l) :
    d ∈ m ∨ (a ≤ d.1 ∧ d.1 < a + l.length) := by
  induction l generalizing m a with
  | nil => exact .inl h
  | cons b rest ih =>
    simp only [List.length_cons]
    rcases ih h with hd | ⟨hlo, hhi⟩
    · rcases mem_writeByte m a b d hd with hd | ⟨rfl, -⟩
      · exact .inl hd
      · exact .inr ⟨Nat.le_refl a, by omega⟩
    · exact .inr ⟨by omega, by omega⟩

/-- A ring write lists bytes of the ring only. -/
theorem inRing_ringWrite {m : Memory} (hm : m.all (fun c => inRing c.1) = true) (i : Fin 16) (v : Word) :
    (ringWrite m i v).all (fun c => inRing c.1) = true := by
  rw [List.all_eq_true] at hm ⊢
  intro d hd
  rcases mem_writeBytes hd with hold | ⟨hlo, hhi⟩
  · exact hm d hold
  · rw [toLanes_length] at hhi
    unfold ringAddr at hlo hhi
    simp only [inRing, Bool.and_eq_true, decide_eq_true_eq]
    omega

/-! ### Finite banks -/

theorem F64.isFinite_zero : F64.isFinite Lit.zero = true := by decide

/-- A bank is finite when its coefficients and its state registers are. -/
theorem bankFinite_iff {bank : List Biquad} : bank.all Biquad.finite = true ↔
    (∀ c ∈ bankCoeffs bank, c.finite = true) ∧
    ∀ z ∈ bankSignal bank, F64.isFinite z.1 = true ∧ F64.isFinite z.2 = true := by
  simp only [bankCoeffs, bankSignal, List.all_eq_true, Biquad.finite, Bool.and_eq_true, List.forall_mem_map, and_assoc]
  exact forall₂_and

theorem dispFinite_iff {bank : List DispStage} : bank.all DispStage.finite = true ↔
    (∀ c ∈ dispCoeffs bank, F64.isFinite c.1 = true ∧ F64.isFinite c.2 = true) ∧
    ∀ z ∈ dispSignal bank, F64.isFinite z = true := by
  simp only [dispCoeffs, dispSignal, List.all_eq_true, DispStage.finite, Bool.and_eq_true, List.forall_mem_map]
  exact forall₂_and

theorem commitBank_finite {cs : List Coeffs} {bank : List Biquad} (hlen : cs.length = bank.length)
    (hcs : ∀ c ∈ cs, c.finite = true) (hbank : bank.all Biquad.finite = true) :
    (commitBank cs bank).all Biquad.finite = true := by
  rw [bankFinite_iff, bankCoeffs_commitBank, bankSignal_commitBank hlen]
  exact ⟨hcs, (bankFinite_iff.mp hbank).2⟩

theorem commitDisp_finite {cs : List (Word × Word)} {bank : List DispStage} (hlen : cs.length = bank.length)
    (hcs : ∀ c ∈ cs, F64.isFinite c.1 = true ∧ F64.isFinite c.2 = true) (hbank : bank.all DispStage.finite = true) :
    (commitDisp cs bank).all DispStage.finite = true := by
  rw [dispFinite_iff, dispCoeffs_commitDisp, dispSignal_commitDisp hlen]
  exact ⟨hcs, (dispFinite_iff.mp hbank).2⟩

theorem commitBank_length (cs : List Coeffs) (bank : List Biquad) : (commitBank cs bank).length = cs.length := by
  simpa [bankCoeffs] using congrArg List.length (bankCoeffs_commitBank cs bank)

theorem commitDisp_length (cs : List (Word × Word)) (bank : List DispStage) :
    (commitDisp cs bank).length = cs.length := by
  simpa [dispCoeffs] using congrArg List.length (dispCoeffs_commitDisp cs bank)

theorem bankReset_finite {bank : List Biquad} (h : bank.all Biquad.finite = true) :
    (bankReset bank).all Biquad.finite = true := by
  rw [bankFinite_iff, bankCoeffs_bankReset]
  refine ⟨(bankFinite_iff.mp h).1, ?_⟩
  simp only [bankSignal, bankReset, List.map_map, List.forall_mem_map]
  exact fun _ _ => ⟨F64.isFinite_zero, F64.isFinite_zero⟩

theorem apReset_finite {bank : List DispStage} (h : bank.all DispStage.finite = true) :
    (bank.map apReset).all DispStage.finite = true := by
  rw [dispFinite_iff, dispCoeffs_apReset]
  refine ⟨(dispFinite_iff.mp h).1, ?_⟩
  simp only [dispSignal, List.map_map, List.forall_mem_map]
  exact fun _ _ => F64.isFinite_zero

theorem bankProcess_bank_finite {bank : List Biquad} (h : bank.all Biquad.finite = true) (x : Word) :
    (bankProcess bank x).2.all Biquad.finite = true := by
  obtain ⟨hco, hz⟩ := bankFinite_iff.mp h
  rw [bankFinite_iff, bankCoeffs, bankProcess_coeffs]
  refine ⟨hco, ?_⟩
  unfold bankProcess
  split
  · obtain ⟨-, -, hstates⟩ := (bankRun_spec bank x).2 ‹_›
    simpa only [bankSignal, List.forall_mem_map] using hstates
  · exact hz

theorem bankProcess_length (bank : List Biquad) (x : Word) : (bankProcess bank x).2.length = bank.length := by
  simpa using congrArg List.length (bankProcess_coeffs bank x)

/-- A dispersive run that passes its guard has finite states, and returns a finite value for a finite input. -/
theorem dispRun_finite {bank : List DispStage} {x : Word} (hok : (dispRun bank x).2.2 = true) :
    (∀ d ∈ (dispRun bank x).2.1, F64.isFinite d.z = true) ∧
    (F64.isFinite x = true → F64.isFinite (dispRun bank x).1 = true) := by
  induction bank generalizing x with
  | nil => exact ⟨by simp [dispRun], id⟩
  | cons d ds ih =>
    simp only [dispRun, Bool.and_eq_true] at hok ⊢
    obtain ⟨⟨hy, hz⟩, hrest⟩ := hok
    obtain ⟨hstates, hout⟩ := ih hrest
    exact ⟨List.forall_mem_cons.mpr ⟨hz, hstates⟩, fun _ => hout hy⟩

/-! ### The invariant, register by register -/

/-- The invariant of R47 with the shapes of the state, one field per register or bank. -/
structure State.Sound (s : State) : Prop where
  fs : F64.isFinite s.fs = true
  bias : inUnit s.bias = true
  ingain : F64.isFinite s.ingain = true
  shieldNorm : F64.isFinite s.shieldNorm = true
  satEnv : F64.isFinite s.satEnv = true
  blendEnv : F64.isFinite s.blendEnv = true
  blendAtt : F64.isFinite s.blendAtt = true
  blendRel : F64.isFinite s.blendRel = true
  fadeGain : inUnit s.fadeGain = true
  fadeInc : F64.isFinite s.fadeInc = true
  fadeInc_nonneg : F64.le Lit.zero s.fadeInc = true
  hystH : F64.isFinite s.hystH = true
  hystM : F64.isFinite s.hystM = true
  azDelay : F64.isFinite s.azDelay = true
  azFrac : F64.isFinite s.azFrac = true
  azCoeff : F64.isFinite s.azCoeff = true
  azZ : F64.isFinite s.azZ = true
  tuning : Tuning.finite s.tuning = true
  shield : s.shield.all Biquad.finite = true
  eqa : s.eqa.all Biquad.finite = true
  eqb : s.eqb.all Biquad.finite = true
  dcb : s.dcb.all Biquad.finite = true
  disp : s.disp.all DispStage.finite = true
  ring : ∀ i, F64.isFinite (ringRead s.mem i) = true
  rate : s.blockState = .ready → finitePositive s.fs = true
  shield_length : s.shield.length = 3
  eqa_length : s.eqa.length = s.par.eqN .A
  eqb_length : s.eqb.length = s.par.eqN .B
  dcb_length : s.dcb.length = 2
  disp_length : s.disp.length = s.par.nDisp.val
  mem_wf : Memory.wf s.mem = true
  mem_inRing : s.mem.all (fun c => inRing c.1) = true

theorem ringFinite_iff {m : Memory} : ringFinite m = true ↔ ∀ i, F64.isFinite (ringRead m i) = true := by
  simp [ringFinite]

theorem rateSet_iff {s : State} : s.rateSet = true ↔ (s.blockState = .ready → finitePositive s.fs = true) := by
  rw [State.rateSet, Bool.or_eq_true, Bool.not_eq_true', ← isReady_iff]
  cases s.isReady <;> simp

theorem State.Inv.sound {s : State} (h : s.Inv) : s.Sound := by
  obtain ⟨hfinite, hranges, hrate, hshape, hmem⟩ := h
  simp only [State.allFinite, State.scalarsFinite, Bool.and_eq_true, ringFinite_iff] at hfinite
  simp only [State.rangesOk, Bool.and_eq_true] at hranges
  obtain ⟨hshield, heqa, heqb, hdcb, hdisp⟩ := shapeOk_iff.mp hshape
  obtain ⟨hwf, hring⟩ := Bool.and_eq_true_iff.mp hmem
  constructor
  case rate => exact rateSet_iff.mp hrate
  all_goals simp only [hfinite, hranges, hshield, heqa, heqb, hdcb, hdisp, hwf, hring, implies_true]

theorem State.Sound.inv {s : State} (h : s.Sound) : s.Inv where
  finite := by
    simp only [State.allFinite, State.scalarsFinite, Bool.and_eq_true, ringFinite_iff, h.fs, isFinite_of_inUnit h.bias,
      h.ingain, h.shieldNorm, h.satEnv, h.blendEnv, h.blendAtt, h.blendRel, isFinite_of_inUnit h.fadeGain, h.fadeInc,
      h.hystH, h.hystM, h.azDelay, h.azFrac, h.azCoeff, h.azZ, h.tuning, h.shield, h.eqa, h.eqb, h.dcb, h.disp, h.ring,
      implies_true, and_self]
  ranges := by simp only [State.rangesOk, h.fadeGain, h.bias, h.fadeInc_nonneg, Bool.and_self]
  rate := rateSet_iff.mpr h.rate
  shape := shapeOk_iff.mpr ⟨h.shield_length, h.eqa_length, h.eqb_length, h.dcb_length, h.disp_length⟩
  mem := Bool.and_eq_true_iff.mpr ⟨h.mem_wf, h.mem_inRing⟩

/-! ### Hardware reset (R430) -/

theorem replicate_finite (n : Nat) : (List.replicate n Biquad.zero).all Biquad.finite = true := by
  refine List.all_eq_true.mpr fun b hb => ?_
  rw [List.eq_of_mem_replicate hb]
  decide

theorem resetWith_sound (P : Params) : (State.resetWith P).Sound where
  fs := F64.isFinite_zero
  bias := (by decide +kernel : inUnit Lit.one = true)
  ingain := (by decide : F64.isFinite Lit.one = true)
  shieldNorm := F64.isFinite_zero
  satEnv := F64.isFinite_zero
  blendEnv := F64.isFinite_zero
  blendAtt := F64.isFinite_zero
  blendRel := F64.isFinite_zero
  fadeGain := (by decide +kernel : inUnit Lit.zero = true)
  fadeInc := F64.isFinite_zero
  fadeInc_nonneg := (by decide : F64.le Lit.zero Lit.zero = true)
  hystH := F64.isFinite_zero
  hystM := F64.isFinite_zero
  azDelay := F64.isFinite_zero
  azFrac := F64.isFinite_zero
  azCoeff := F64.isFinite_zero
  azZ := F64.isFinite_zero
  tuning := (by decide : Tuning.finite Tuning.zero = true)
  shield := replicate_finite 3
  eqa := replicate_finite _
  eqb := replicate_finite _
  dcb := replicate_finite 2
  disp := by
    refine List.all_eq_true.mpr fun d hd => ?_
    rw [List.eq_of_mem_replicate hd]
    decide
  ring := (by decide : ∀ i, F64.isFinite (ringRead [] i) = true)
  rate := nofun
  shield_length := rfl
  eqa_length := List.length_replicate
  eqb_length := List.length_replicate
  dcb_length := rfl
  disp_length := List.length_replicate
  mem_wf := rfl
  mem_inRing := rfl

/-- Settles O45: every register of the reset state is a zero or a one, and the block is not Ready. -/
theorem invAtReset : Obligations.InvAtReset :=
  ⟨fun P => ⟨(resetWith_sound P).inv, nofun⟩, (resetWith_sound _).inv, nofun⟩

end Sys2Proof.Machine

/-! SUPPORT. The pipeline and every command keep the invariant (spec/46_pipeline.md R313, spec/10_state.md R47), and the
fade gain never falls but at a reset. -/

namespace Sys2Proof.Machine

/-! ### The stages of the pipeline -/

section Stages

variable {s : State} (h : s.Sound)
include h

theorem State.Sound.split (x : Word) : (Machine.split s x).2.Sound := by
  rw [split_state]
  exact { h with
    shield := bankProcess_bank_finite h.shield x
    shield_length := (bankProcess_length _ _).trans h.shield_length }

theorem State.Sound.blendEnvStep (v : Word) : (Machine.blendEnvStep s v).Sound :=
  { h with blendEnv := guardOr_finite h.blendEnv }

theorem State.Sound.hystStep (v : Word) : (Machine.hystStep s v).2.Sound := by
  obtain ⟨_, _, he, hH, hM⟩ := hystStep_frame s v
  rw [he]
  exact { h with hystH := hH, hystM := hM }

theorem State.Sound.satStage (x : Word) : (Machine.satStage s x).2.Sound := by
  obtain ⟨e, he, hsame | hfin⟩ := satStage_frame s x
  · rw [he, hsame]
    exact h
  · rw [he]
    exact { h with satEnv := hfin }

theorem State.Sound.eqProcess (x : Word) : (Machine.eqProcess s x).2.Sound := by
  unfold Machine.eqProcess
  split
  · exact { h with
      eqa := bankProcess_bank_finite h.eqa x
      eqa_length := (bankProcess_length _ _).trans h.eqa_length }
  · exact { h with
      eqb := bankProcess_bank_finite h.eqb x
      eqb_length := (bankProcess_length _ _).trans h.eqb_length }

theorem State.Sound.dispProcess (x : Word) : (Machine.dispProcess s x).2.Sound := by
  unfold Machine.dispProcess
  split
  · have hstates := (dispRun_finite ‹_›).1
    have hco := (dispFinite_iff.mp h.disp).1
    refine { h with disp := dispFinite_iff.mpr ⟨?_, ?_⟩, disp_length := ?_ }
    · rw [dispCoeffs, dispRun_frame]
      exact hco
    · simpa only [dispSignal, List.forall_mem_map] using hstates
    · rw [← h.disp_length]
      simpa using congrArg List.length (dispRun_frame s.disp x)
  · exact h

theorem State.Sound.dcbProcess (x : Word) : (Machine.dcbProcess s x).2.Sound :=
  { h with
    dcb := bankProcess_bank_finite h.dcb x
    dcb_length := (bankProcess_length _ _).trans h.dcb_length }

theorem State.Sound.fadeStep (x : Word) : (Machine.fadeStep s x).2.Sound :=
  { h with fadeGain := (fadeGain_next h.fadeGain h.fadeInc h.fadeInc_nonneg).1 }

theorem State.Sound.azStep {p : Word} (hp : F64.isFinite p = true) : (Machine.azStep s p).2.Sound := by
  have hring (i : Fin 16) : F64.isFinite (ringRead (ringWrite s.mem s.azWidx p) i) = true := by
    rw [ringRead_ringWrite h.mem_wf]
    split
    · exact hp
    · exact h.ring i
  have hazZ (r : Word) : F64.isFinite (azFractional s r).2 = true := by
    simp only [azFractional]
    split
    · exact h.azZ
    · split
      · rename_i hok
        exact (Bool.and_eq_true_iff.mp hok).2
      · exact h.azZ
  rw [azStep_state]
  exact { h with
    ring := hring
    azZ := hazZ _
    mem_wf := wf_ringWrite _ _ _ h.mem_wf
    mem_inRing := inRing_ringWrite h.mem_inRing _ _ }

end Stages

/-! ### The values between the stages (R15) -/

theorem split_finite (s : State) {x : Word} (hx : F64.isFinite x = true) : F64.isFinite (split s x).1.1 = true :=
  guardOr_finite hx

theorem satStage_finite (s : State) {x : Word} (hx : F64.isFinite x = true) : F64.isFinite (satStage s x).1 = true := by
  simp only [satStage]
  split
  · rename_i hok
    exact (Bool.and_eq_true_iff.mp hok).1
  · exact hx

theorem eqProcess_finite (s : State) {x : Word} (hx : F64.isFinite x = true) :
    F64.isFinite (eqProcess s x).1 = true := by
  unfold eqProcess
  split <;> exact bankProcess_finite _ hx

theorem dispProcess_finite (s : State) {x : Word} (hx : F64.isFinite x = true) :
    F64.isFinite (dispProcess s x).1 = true := by
  unfold dispProcess
  split
  · exact (dispRun_finite ‹_›).2 hx
  · exact hx

/-! ### The whole pipeline -/

theorem pipelineFront_sound {s : State} (h : s.Sound) (x : Word) : (pipelineFront s x).2.Sound :=
  ((h.split _).blendEnvStep _).hystStep _

theorem pipelineFront_finite (s : State) (x : Word) : F64.isFinite (pipelineFront s x).1.1 = true :=
  guardOr_finite (split_finite s (guardOr_finite (sanitize_finite x)))

theorem pipelineBack_sound {s : State} (h : s.Sound) {bl : Word} (hbl : F64.isFinite bl = true) (c : Word) :
    (pipelineBack s bl c).2.Sound ∧ F64.isFinite (pipelineBack s bl c).1 = true := by
  have hsat := satStage_finite s hbl
  have heq := eqProcess_finite (satStage s bl).2 (guardOr_finite (c := F64.add (satStage s bl).1 c) hsat)
  have hdcb (x y z : Word) : (dcbProcess (dispProcess (eqProcess (satStage s bl).2 x).2 y).2 z).2.Sound :=
    (((h.satStage bl).eqProcess x).dispProcess y).dcbProcess z
  exact ⟨(hdcb _ _ _).fadeStep _,
    F64.mul_inUnit_finite (bankProcess_finite _ (dispProcess_finite _ heq)) (hdcb _ _ _).fadeGain⟩

/-- The pipeline keeps the invariant, and its output is finite (R313, R314). -/
theorem pipeline_sound {s : State} (h : s.Sound) (x : Word) :
    (pipeline s x).2.Sound ∧ F64.isFinite (pipeline s x).1 = true :=
  pipelineBack_sound (pipelineFront_sound h x) (pipelineFront_finite s x) _

theorem processed_sound {s : State} (h : s.Sound) : (processed s).Sound := by
  obtain ⟨hs, -⟩ := pipeline_sound h (opSample s)
  unfold processed
  generalize pipeline s (opSample s) = p at hs ⊢
  exact { hs with }

theorem processed2_sound {s : State} (h : s.Sound) : (processed2 s).Sound := by
  obtain ⟨hs, hout⟩ := pipeline_sound h (opSample s)
  simp only [processed2]
  generalize pipeline s (opSample s) = p at hs hout ⊢
  exact { hs.azStep hout with }

/-! ### Commands and steps -/

theorem commitRate_sound {s : State} {r : RateSet} (h : s.Sound) (hr : r.Sound s.par)
    (hinc : F64.le Lit.zero r.fadeInc = true) : (commitRate r s).Sound :=
  { h with
    eqa := commitBank_finite (hr.eqa_length.trans h.eqa_length.symm) hr.eqa h.eqa
    eqb := commitBank_finite (hr.eqb_length.trans h.eqb_length.symm) hr.eqb h.eqb
    dcb := commitBank_finite (hr.dcb_length.trans h.dcb_length.symm) hr.dcb h.dcb
    eqa_length := (commitBank_length _ _).trans hr.eqa_length
    eqb_length := (commitBank_length _ _).trans hr.eqb_length
    dcb_length := (commitBank_length _ _).trans hr.dcb_length
    blendAtt := hr.blendAtt
    blendRel := hr.blendRel
    fadeInc := hr.fadeInc
    fadeInc_nonneg := hinc }

theorem commitProfile_sound {s : State} {q : ProfileSet} (h : s.Sound) (hq : q.Sound s.par) :
    (commitProfile q s).Sound :=
  { h with
    shield := commitBank_finite (hq.shield_length.trans h.shield_length.symm) hq.shield h.shield
    disp := commitDisp_finite (hq.disp_length.trans h.disp_length.symm) hq.disp h.disp
    shield_length := (commitBank_length _ _).trans hq.shield_length
    disp_length := (commitDisp_length _ _).trans hq.disp_length
    shieldNorm := hq.shieldNorm
    azDelay := hq.azDelay
    azFrac := hq.azFrac
    azCoeff := hq.azCoeff
    tuning := hq.tuning }

theorem zeroSignal_sound {s : State} (h : s.Sound) : (zeroSignal s).Sound :=
  { h with
    shield := bankReset_finite h.shield
    eqa := bankReset_finite h.eqa
    eqb := bankReset_finite h.eqb
    dcb := bankReset_finite h.dcb
    disp := apReset_finite h.disp
    shield_length := (List.length_map _).trans h.shield_length
    eqa_length := (List.length_map _).trans h.eqa_length
    eqb_length := (List.length_map _).trans h.eqb_length
    dcb_length := (List.length_map _).trans h.dcb_length
    disp_length := (List.length_map _).trans h.disp_length
    satEnv := F64.isFinite_zero
    blendEnv := F64.isFinite_zero
    hystH := F64.isFinite_zero
    hystM := F64.isFinite_zero
    azZ := F64.isFinite_zero
    fadeGain := (resetWith_sound s.par).fadeGain
    ring := (resetWith_sound s.par).ring
    mem_wf := rfl
    mem_inRing := rfl }

theorem Effect.keepsSound {i : Instr} {s u : State} (h : s.Sound) (hu : Effect i s u) : u.Sound := by
  cases hu with
  | configure hrate hset =>
    obtain ⟨hr, hq⟩ := recomputeFull_some.mp hset
    obtain ⟨hrsound, hinc⟩ := recomputeRate_sound hr
    have hfs := rateOk_iff.mp hrate
    have hinc0 := fadeIncrement_nonneg hfs (hinc ▸ hrsound.fadeInc)
    rw [← hinc] at hinc0
    exact { commitProfile_sound (commitRate_sound h hrsound hinc0) (recomputeProfile_sound hq) with
      fs := (Bool.and_eq_true_iff.mp hfs).1
      rate := fun _ => hfs }
  | switchProfile hbias hgain _ hset =>
    exact { commitProfile_sound h (recomputeProfile_sound hset) with bias := clampedBias_inUnit hbias, ingain := hgain }
  | latchProfile hbias hgain => exact { h with bias := clampedBias_inUnit hbias, ingain := hgain }
  | reset => exact zeroSignal_sound h
  | process => exact processed_sound h
  | process2 => exact processed2_sound h
  | nop => exact h
  | rdReg => exact { h with }
  | calibrate hput hvalue => exact { h with tuning := calPut_finite hput hvalue h.tuning }

/-- Settles O46, by `Effect.keepsSound` for the commands and `resetWith_sound` for a hardware reset. -/
theorem stepKeepsInv : Obligations.StepKeepsInv := by
  intro s t hs h
  have hsound := hs.sound
  apply State.Sound.inv
  rcases step_effect h with ⟨-, rest, rfl⟩ | hidle | ⟨i, rest, w, u, -, hu, rfl⟩
  · exact { resetWith_sound s.par with }
  · rw [hidle.eq]
    exact { hsound with }
  · have hlatched : (s.latched rest w).Sound := { hsound with }
    exact { hu.keepsSound hlatched with }

/-! ### The fade gain (R47(2), R316) -/

/-- One sample moves the fade gain by one increment (R312). -/
theorem pipelineBack_fadeGain (s : State) (bl c : Word) :
    (pipelineBack s bl c).2.fadeGain = F64.min Lit.one (F64.add s.fadeGain s.fadeInc) := by
  have hsat (s : State) (x : Word) :
      ((satStage s x).2.fadeGain, (satStage s x).2.fadeInc) = (s.fadeGain, s.fadeInc) := by
    obtain ⟨e, he, -⟩ := satStage_frame s x
    rw [he]
  have heq (s : State) (x : Word) :
      ((eqProcess s x).2.fadeGain, (eqProcess s x).2.fadeInc) = (s.fadeGain, s.fadeInc) := by
    obtain ⟨a, b, he, -, -⟩ := eqProcess_frame s x
    rw [he]
  have hdisp (s : State) (x : Word) :
      ((dispProcess s x).2.fadeGain, (dispProcess s x).2.fadeInc) = (s.fadeGain, s.fadeInc) := by
    obtain ⟨d, he, -⟩ := dispProcess_frame s x
    rw [he]
  simp only [Prod.mk.injEq] at hsat heq hdisp
  simp only [pipelineBack, fadeStep, dcbProcess, hsat, heq, hdisp]

theorem pipeline_fadeGain (s : State) (x : Word) :
    (pipeline s x).2.fadeGain = F64.min Lit.one (F64.add s.fadeGain s.fadeInc) := by
  have hfront : (pipelineFront s x).2.fadeGain = s.fadeGain ∧ (pipelineFront s x).2.fadeInc = s.fadeInc := by
    simp only [pipelineFront]
    obtain ⟨_, _, he, -, -⟩ := hystStep_frame (blendEnvStep (split s (gainStage s (sanitize x))).2
      (split s (gainStage s (sanitize x))).1.1) (split s (gainStage s (sanitize x))).1.1
    rw [he]
    exact ⟨rfl, rfl⟩
  rw [pipeline, pipelineBack_fadeGain, hfront.1, hfront.2]

theorem processed_fadeGain (s : State) : (processed s).fadeGain = F64.min Lit.one (F64.add s.fadeGain s.fadeInc) :=
  pipeline_fadeGain s (opSample s)

theorem processed2_fadeGain (s : State) : (processed2 s).fadeGain = F64.min Lit.one (F64.add s.fadeGain s.fadeInc) := by
  rw [← pipeline_fadeGain s (opSample s)]
  simp only [processed2, azStep_state]

theorem Effect.fadeGain {i : Instr} {s u : State} (hu : Effect i s u) : u.fadeGain = s.fadeGain ∨
    u.fadeGain = F64.min Lit.one (F64.add s.fadeGain s.fadeInc) ∨ i = .reset := by
  cases hu with
  | process => exact .inr (.inl (processed_fadeGain s))
  | process2 => exact .inr (.inl (processed2_fadeGain s))
  | reset => exact .inr (.inr rfl)
  | nop | configure | switchProfile | latchProfile | rdReg | calibrate => exact .inl rfl

/-- Settles O48: only a sample moves the gain, by a sum that the monotone rounding keeps from falling. -/
theorem fadeGainNeverFalls : Obligations.FadeGainNeverFalls := by
  intro s t hs h
  have hsound := hs.sound
  have hrefl := F64.le_refl (isFinite_of_inUnit hsound.fadeGain)
  rcases step_effect h with ⟨hr, -⟩ | hidle | ⟨i, rest, w, u, hi, hu, rfl⟩
  · exact .inr (.inl hr)
  · rw [hidle.sameSignal.fadeGain]
    exact .inl hrefl
  · rw [complete_fadeGain]
    rcases hu.fadeGain with he | he | rfl
    · rw [he]
      exact .inl hrefl
    · rw [he]
      exact .inl (fadeGain_next hsound.fadeGain hsound.fadeInc hsound.fadeInc_nonneg).2
    · exact .inr (.inr hi)

end Sys2Proof.Machine

/-! SUPPORT. Byte lanes of a word (spec/20_memory.md R85), the lanes of a command, what each access of the host window
does, said once per register (R84 to R89), and the statements about the window and about several instances. -/

namespace Sys2Proof.Machine

/-! ### Lanes of a word (R85) -/

theorem toLanes_getElem? {k i : Nat} (n : Nat) (h : i < k) :
    (toLanes k n)[i]? = some (BitVec.ofNat 8 (n / 256 ^ i)) := by
  induction k generalizing n i with
  | zero => omega
  | succ k ih =>
    cases i with
    | zero => simp [toLanes]
    | succ i =>
      rw [toLanes, List.getElem?_cons_succ, ih _ (Nat.lt_of_succ_lt_succ h), Nat.div_div_eq_div_mul, Nat.pow_succ']

/-- Lane `i` of a word holds its bits [8i+7:8i]. -/
theorem toLanes_toNat_getElem? {m k i : Nat} (v : BitVec m) (h : i < k) :
    (toLanes k v.toNat)[i]? = some (v.extractLsb' (8 * i) 8) := by
  rw [toLanes_getElem? _ h, BitVec.extractLsb', Nat.shiftRight_eq_div_pow, Nat.pow_mul]

/-- Eight lanes are the lanes of the word they spell. -/
theorem toLanes_wordOfLanes {lanes : List Byte} (h : lanes.length = 8) :
    toLanes 8 (BitVec.ofNat 64 (ofLanes lanes)).toNat = lanes := by
  have hlt : ofLanes lanes < 2 ^ 64 := by simpa [h] using ofLanes_lt lanes
  rw [BitVec.toNat_ofNat, Nat.mod_eq_of_lt hlt, ← h, toLanes_ofLanes]

@[simp] theorem cmdOfLanes_toLanes (w : CmdWord) : cmdOfLanes (toLanes 4 w.toNat) = w := by
  rw [cmdOfLanes, ofLanes_toLanes, Nat.mod_eq_of_lt (by exact w.isLt), BitVec.ofNat_toNat, BitVec.setWidth_eq]

@[simp] theorem decodeBytes_toLanes (w : CmdWord) : decodeBytes (toLanes 4 w.toNat) = decode w := by
  rw [decodeBytes, toLanes_length, if_pos rfl]
  exact congrArg decode (cmdOfLanes_toLanes w)

theorem length_of_decodeBytes {lanes : List Byte} {i : Instr} (h : decodeBytes lanes = .ok i) : lanes.length = 4 := by
  unfold decodeBytes at h
  split at h
  · assumption
  · cases h

/-! ### The decoder on an encoded command (R107) -/

theorem encode_rdReg_toNat {a : Nat} (ha : a < 4096) : (encode (.rdReg a)).toNat = 6 * 2 ^ 24 + a := by
  simp only [encode, opcode, lowField, BitVec.toNat_ofNat]
  omega

/-- A format A word decodes to its address (R103). -/
theorem decode_encode_rdReg {a : Nat} (ha : a < 4096) : decode (encode (.rdReg a)) = .ok (.rdReg a) := by
  have hword := encode_rdReg_toNat ha
  have hopcode : (encode (.rdReg a)).toNat / 2 ^ 24 = 6 := by omega
  have hreserved : (encode (.rdReg a)).toNat % 2 ^ 24 / 2 ^ 12 = 0 := by omega
  have haddr : (encode (.rdReg a)).toNat % 2 ^ 12 = a := by omega
  simp only [decode, hopcode, decodeA, hreserved, haddr, if_true]

/-- The encoding of a command decodes to it: by evaluation, but for the 4096 words of format A. -/
theorem decode_encode {i : Instr} (h : i.wellFormed = true) : decode (encode i) = .ok i := by
  cases i with
  | rdReg a => exact decode_encode_rdReg (of_decide_eq_true h)
  | setProfile f => cases f <;> rfl
  | nop | configure | reset | process | process2 | calSatA3 | calPower | calLowScale | calBlendRatio | calLowThresh
    | calCurvePower | calKneeThresh | calKneeAmount => rfl

/-- Settles O2: the lanes of a word decode as the word does. -/
theorem roundTripBytes : Obligations.RoundTripBytes := by
  intro i h
  have hlanes : decodeBytes (encodeBytes i) = .ok i := (decodeBytes_toLanes _).trans (decode_encode h)
  refine ⟨toLanes_length _ _, hlanes, ?_⟩
  rw [decodeTableWord, Nat.mod_eq_of_lt (encode i).isLt]
  exact congrArg Except.toOption hlanes

/-! ### The event a step takes (R92) -/

theorem step_of_waiting {s : State} (hp : s.pending = []) : step s = .next s := by simp only [step, hp]

theorem step_of_write {s : State} {offset : Nat} {lanes : List Byte} {rest : List HostEvent}
    (hp : s.pending = .write offset lanes :: rest) :
    step s = hostWrite offset lanes { s with pending := rest } := by simp only [step, hp, takeEvent]

theorem step_of_read {s : State} {offset width : Nat} {rest : List HostEvent}
    (hp : s.pending = .read offset width :: rest) :
    step s = hostRead offset width { s with pending := rest } := by simp only [step, hp, takeEvent]

/-! ### Accesses of the host window, register by register (R84 to R87) -/

@[simp] theorem windowReg_offset (r : WindowReg) : windowReg r.offset r.width = some r := by cases r <;> rfl

theorem hostWrite_cmd {lanes : List Byte} (h : lanes.length = 4) (s : State) :
    hostWrite 0x00 lanes s = issue lanes s := by simp [hostWrite, windowReg, h]

theorem hostWrite_op0 {lanes : List Byte} (h : lanes.length = 8) (s : State) :
    hostWrite 0x08 lanes s = .next { s with op0 := BitVec.ofNat 64 (ofLanes lanes) } := by
  simp [hostWrite, windowReg, h]

theorem hostWrite_op1 {lanes : List Byte} (h : lanes.length = 8) (s : State) :
    hostWrite 0x10 lanes s = .next { s with op1 := BitVec.ofNat 64 (ofLanes lanes) } := by
  simp [hostWrite, windowReg, h]

/-- A write of a register that the host cannot write is ignored (R87). -/
theorem hostWrite_readOnly {r : WindowReg} (hr : r = .reserved ∨ r = .res ∨ r = .status) {lanes : List Byte}
    (h : lanes.length = r.width) (s : State) : hostWrite r.offset lanes s = .next s := by
  rw [hostWrite, h, windowReg_offset]
  rcases hr with rfl | rfl | rfl <;> rfl

theorem hostWrite_inadmissible {offset : Nat} {lanes : List Byte} (h : windowReg offset lanes.length = none)
    (s : State) : hostWrite offset lanes s = .fault (.inadmissibleAccess offset lanes.length) := by
  simp only [hostWrite, h]

theorem hostRead_of_windowReg {offset width : Nat} {r : WindowReg} (h : windowReg offset width = some r) (s : State) :
    hostRead offset width s = .next { s with rdata := toLanes width (windowValue s r) } := by simp only [hostRead, h]

theorem hostRead_inadmissible {offset width : Nat} (h : windowReg offset width = none) (s : State) :
    hostRead offset width s = .fault (.inadmissibleAccess offset width) := by simp only [hostRead, h]

/-! ### A `CMD` write (R340) -/

theorem issue_of_decode {lanes : List Byte} {i : Instr} (h : decodeBytes lanes = .ok i) (s : State) :
    issue lanes s = exec i { s with cmd := cmdOfLanes lanes } := by simp only [issue, h]

theorem issue_of_illegal {lanes : List Byte} {e : Illegal} (h : decodeBytes lanes = .error e) (s : State) :
    issue lanes s = .next (illegalCommand { s with cmd := cmdOfLanes lanes }) := by simp only [issue, h]

theorem step_of_command {s : State} {lanes : List Byte} {rest : List HostEvent} {i : Instr}
    (hp : s.pending = .write 0x00 lanes :: rest) (hi : decodeBytes lanes = .ok i) :
    step s = exec i { s with pending := rest, cmd := cmdOfLanes lanes } := by
  rw [step_of_write hp, hostWrite_cmd (length_of_decodeBytes hi), issue_of_decode hi]

theorem withFetchWord_pending (s : State) (w : CmdWord) :
    (s.withFetchWord 32 w.toNat).pending = .write 0x00 (toLanes 4 w.toNat) :: s.pending := by
  simp only [State.withFetchWord, cmdWrite, Nat.mod_eq_of_lt w.isLt]

/-- Settles O6: the fetch word of a command is the `CMD` write of its lanes. -/
theorem stepRunsCommand : Obligations.StepRunsCommand := by
  refine ⟨fun s lanes rest i => step_of_command, fun s i h => ?_⟩
  have hi : decodeBytes (toLanes 4 (encode i).toNat) = .ok i := (decodeBytes_toLanes _).trans (decode_encode h)
  rw [step_of_command (withFetchWord_pending s (encode i)) hi, cmdOfLanes_toLanes]
  rfl

/-! ### Every command completes and takes no further access (R86, R88) -/

theorem exec_completes (i : Instr) (s : State) : ∃ t, exec i s = .next t := by
  cases i with
  | rdReg a =>
    rcases execRdReg_cases a s with ⟨v, -, h⟩ | ⟨-, h⟩
    · exact ⟨_, h⟩
    · exact ⟨_, h⟩
  | nop | configure | setProfile | reset | process | process2 | calSatA3 | calPower | calLowScale | calBlendRatio
    | calLowThresh | calCurvePower | calKneeThresh | calKneeAmount => exact ⟨_, rfl⟩

theorem exec_pending {i : Instr} {s t : State} (h : exec i s = .next t) : t.pending = s.pending := by
  rcases exec_effect h with ⟨-, he⟩ | ⟨u, hu, rfl⟩
  · rw [he]
  · exact hu.sameHost.pending

theorem illegalCommand_pending (s : State) : (illegalCommand s).pending = s.pending := by
  unfold illegalCommand
  rcases framed_cases s fun _ => .error .illegalCmd with ⟨-, h⟩ | ⟨-, _, he, -⟩ | ⟨-, c, -, h⟩
  · rw [h, refuse_pending]
  · cases he
  · rw [h, raiseFault_pending]

theorem issue_completes (lanes : List Byte) (s : State) : ∃ t, issue lanes s = .next t ∧ t.pending = s.pending := by
  cases hd : decodeBytes lanes with
  | ok i =>
    obtain ⟨t, ht⟩ := exec_completes i { s with cmd := cmdOfLanes lanes }
    have hrest := exec_pending ht
    exact ⟨t, (issue_of_decode hd s).trans ht, hrest⟩
  | error e => exact ⟨_, issue_of_illegal hd s, illegalCommand_pending { s with cmd := cmdOfLanes lanes }⟩

/-- A write of a window register completes, whatever its lanes hold. -/
theorem hostWrite_completes {offset : Nat} {lanes : List Byte} {r : WindowReg}
    (h : windowReg offset lanes.length = some r) (s : State) :
    ∃ t, hostWrite offset lanes s = .next t ∧ t.pending = s.pending := by
  obtain ⟨rfl, hlen⟩ := windowReg_eq_some h
  cases r with
  | cmd =>
    obtain ⟨t, ht, hrest⟩ := issue_completes lanes s
    exact ⟨t, (hostWrite_cmd hlen s).trans ht, hrest⟩
  | op0 => exact ⟨_, hostWrite_op0 hlen s, rfl⟩
  | op1 => exact ⟨_, hostWrite_op1 hlen s, rfl⟩
  | reserved | res | status => exact ⟨s, hostWrite_readOnly (by simp) hlen s, rfl⟩

/-- The offset and width of every access that R86 lists, and of the one at offset 0x04 (notes/assumptions/9.md). -/
def admittedAccesses : List (Nat × Nat) := [(0x00, 4), (0x04, 4), (0x08, 8), (0x10, 8), (0x18, 8), (0x20, 8)]

theorem mem_admittedAccesses_iff {offset width : Nat} :
    (offset, width) ∈ admittedAccesses ↔ ∃ r, windowReg offset width = some r := by
  constructor
  · intro h
    simp only [admittedAccesses, List.mem_cons, Prod.mk.injEq, List.not_mem_nil, or_false] at h
    rcases h with ⟨rfl, rfl⟩ | ⟨rfl, rfl⟩ | ⟨rfl, rfl⟩ | ⟨rfl, rfl⟩ | ⟨rfl, rfl⟩ | ⟨rfl, rfl⟩ <;> exact ⟨_, rfl⟩
  · rintro ⟨r, h⟩
    obtain ⟨rfl, rfl⟩ := windowReg_eq_some h
    cases r <;> decide

theorem windowReg_eq_none {offset width : Nat} (h : (offset, width) ∉ admittedAccesses) :
    windowReg offset width = none :=
  Option.eq_none_iff_forall_ne_some.mpr fun r hr => h (mem_admittedAccesses_iff.mpr ⟨r, hr⟩)

/-- Settles O8: an access that reaches a register completes, and one that reaches none stops the model. -/
theorem admittedAccessesComplete : Obligations.AdmittedAccessesComplete := by
  intro s rest offset lanes width
  refine ⟨step_of_waiting, fun hp => ?_, fun hp => ?_⟩
  · rw [step_of_write hp]
    split_ifs with hmem
    · obtain ⟨r, hr⟩ := mem_admittedAccesses_iff.mp hmem
      exact hostWrite_completes hr { s with pending := rest }
    · exact hostWrite_inadmissible (windowReg_eq_none hmem) _
  · rw [step_of_read hp]
    split_ifs with hmem
    · obtain ⟨r, hr⟩ := mem_admittedAccesses_iff.mp hmem
      exact ⟨_, hostRead_of_windowReg hr _, rfl⟩
    · exact hostRead_inadmissible (windowReg_eq_none hmem) _

/-! ### Writes and reads, lane by lane (R84 to R89) -/

theorem getElem?_of_wordOfLanes {lanes : List Byte} (h : lanes.length = 8) :
    ∀ i < 8, lanes[i]? = some ((BitVec.ofNat 64 (ofLanes lanes)).extractLsb' (8 * i) 8) := fun i hi => by
  rw [← toLanes_toNat_getElem? _ hi, toLanes_wordOfLanes h]

/-- Settles O9: an operand register holds the word that the lanes spell, and the others ignore the write. -/
theorem windowWrites : Obligations.WindowWrites := by
  intro s rest lanes
  refine ⟨fun hp h => ?_, fun hp h => ?_, ?_, fun hp h => ?_⟩
  · exact ⟨_, (step_of_write hp).trans (hostWrite_op0 h _), getElem?_of_wordOfLanes h⟩
  · exact ⟨_, (step_of_write hp).trans (hostWrite_op1 h _), getElem?_of_wordOfLanes h⟩
  · rintro (hp | hp) h
    · exact (step_of_write hp).trans (hostWrite_readOnly (r := .res) (by simp) h _)
    · exact (step_of_write hp).trans (hostWrite_readOnly (r := .status) (by simp) h _)
  · exact (step_of_write hp).trans (hostWrite_readOnly (r := .reserved) (by simp) h _)

/-- A read of a window register: the lanes of its value go to the host. The value is that of the state before, because
taking the access from the port changes no register. -/
theorem step_of_regRead (r : WindowReg) {s : State} {rest : List HostEvent}
    (hp : s.pending = .read r.offset r.width :: rest) :
    step s = .next { s with pending := rest, rdata := toLanes r.width (windowValue s r) } := by
  rw [step_of_read hp, hostRead_of_windowReg (windowReg_offset r)]
  cases r <;> rfl

/-- Offset 0x04 reads as four zero lanes (R84). -/
theorem reserved_reads_zero (s : State) :
    toLanes WindowReg.reserved.width (windowValue s .reserved) = [0, 0, 0, 0] := by
  simp only [WindowReg.width, windowValue]
  decide

/-- The lanes that a read of a register with the value `v` returns. -/
theorem step_reads_lanes {r : WindowReg} {m : Nat} {v : BitVec m} {s : State} {rest : List HostEvent}
    (hv : windowValue s r = v.toNat) (hp : s.pending = .read r.offset r.width :: rest) :
    ∃ l, step s = .next { s with pending := rest, rdata := l } ∧ l.length = r.width ∧
      ∀ i < r.width, l[i]? = some (v.extractLsb' (8 * i) 8) := by
  refine ⟨_, step_of_regRead r hp, toLanes_length _ _, fun i hi => ?_⟩
  rw [hv, toLanes_toNat_getElem? v hi]

/-- Settles O10: one rule for all six registers, with the value each of them holds. -/
theorem windowReads : Obligations.WindowReads := by
  intro s rest
  refine ⟨step_reads_lanes (r := .cmd) rfl, fun hp => ?_, ?_⟩
  · rw [step_of_regRead .reserved hp, reserved_reads_zero]
  · rintro off v (⟨rfl, rfl⟩ | ⟨rfl, rfl⟩ | ⟨rfl, rfl⟩ | ⟨rfl, rfl⟩)
    · exact step_reads_lanes (r := .op0) rfl
    · exact step_reads_lanes (r := .op1) rfl
    · exact step_reads_lanes (r := .res) rfl
    · exact step_reads_lanes (r := .status) rfl

/-! ### Several instances (R98, R420) -/

/-- A step at a place replaces the block that stands there and no other. -/
theorem stepAt_eq_some {y z : System} {k : Nat} (h : System.stepAt y k = some z) :
    ∃ p t, y[k]? = some p ∧ step p.inst = .next t ∧ z = y.set k { p with inst := t } := by
  induction y generalizing k z with
  | nil => cases h
  | cons p rest ih =>
    cases k with
    | zero =>
      simp only [System.stepAt] at h
      split at h
      · cases h
        exact ⟨p, _, rfl, ‹_›, rfl⟩
      · cases h
    | succ k =>
      obtain ⟨z', hz', rfl⟩ := Option.map_eq_some_iff.mp h
      obtain ⟨q, t, hq, ht, rfl⟩ := ih hz'
      exact ⟨q, t, hq, ht, rfl⟩

/-- Settles O60: the system after the step is the list before with one place set. -/
theorem instancesShareNothing : Obligations.InstancesShareNothing := by
  intro y z k h
  obtain ⟨p, t, hp, ht, rfl⟩ := stepAt_eq_some h
  obtain ⟨hk, -⟩ := List.getElem?_eq_some_iff.mp hp
  exact ⟨List.length_set, fun j hj => List.getElem?_set_ne hj.symm, p, t, hp, ht, List.getElem?_set_self hk⟩

end Sys2Proof.Machine

/-! SUPPORT. The decoder of spec/30_encoding.md R107 against the encoder and the opcode map. `decode_eq_ok_iff` says once
which words decode to a command; with it every statement about words becomes one about the opcode, which has to be
assigned, and the number below it, which has to fit the bits that the format leaves free (`decodes_to_opcode_iff`). -/

namespace Sys2Proof

/-! ### Formats (R101 to R103) -/

/-- The number of low bits of a word that the format of an opcode leaves free: `F`, `ADDR`, or none. -/
def operandBits : Nat → Nat
  | 0x02 => 1
  | 0x06 => 12
  | _ => 0

/-- The opcodes that have a row in R106. -/
def Assigned (op : Nat) : Prop := op ≤ 0x06 ∨ (0x10 ≤ op ∧ op ≤ 0x17)

theorem operandBits_eq_zero {op : Nat} (hf : op ≠ 0x02) (ha : op ≠ 0x06) : operandBits op = 0 := by
  unfold operandBits
  split
  · exact absurd rfl hf
  · exact absurd rfl ha
  · rfl

theorem operandBits_cases (op : Nat) : operandBits op = 0 ∨ operandBits op = 1 ∨ operandBits op = 12 := by
  unfold operandBits
  split
  · exact .inr (.inl rfl)
  · exact .inr (.inr rfl)
  · exact .inl rfl

theorem assigned_opcode (i : Instr) : Assigned (opcode i) := by cases i <;> simp [Assigned, opcode]

/-- A well-formed command keeps within the bits its format leaves free. -/
theorem lowField_lt {i : Instr} (h : i.wellFormed = true) : lowField i < 2 ^ operandBits (opcode i) := by
  cases i with
  | rdReg a => exact of_decide_eq_true h
  | setProfile f => cases f <;> decide
  | nop | configure | reset | process | process2 | calSatA3 | calPower | calLowScale | calBlendRatio | calLowThresh
    | calCurvePower | calKneeThresh | calKneeAmount => decide

theorem exists_opcode {op : Nat} (h : Assigned op) : ∃ i : Instr, i.wellFormed = true ∧ opcode i = op := by
  rcases h with h | ⟨hl, hu⟩
  · interval_cases op
    exacts [⟨.nop, rfl, rfl⟩, ⟨.configure, rfl, rfl⟩, ⟨.setProfile .f1, rfl, rfl⟩, ⟨.reset, rfl, rfl⟩,
      ⟨.process, rfl, rfl⟩, ⟨.process2, rfl, rfl⟩, ⟨.rdReg 0, rfl, rfl⟩]
  · interval_cases op
    exacts [⟨.calSatA3, rfl, rfl⟩, ⟨.calPower, rfl, rfl⟩, ⟨.calLowScale, rfl, rfl⟩, ⟨.calBlendRatio, rfl, rfl⟩,
      ⟨.calLowThresh, rfl, rfl⟩, ⟨.calCurvePower, rfl, rfl⟩, ⟨.calKneeThresh, rfl, rfl⟩, ⟨.calKneeAmount, rfl, rfl⟩]

/-- Every number that fits the free bits of a row is the low field of a command of that row. -/
theorem exists_lowField (i : Instr) (hi : i.wellFormed = true) {n : Nat} (hn : n < 2 ^ operandBits (opcode i)) :
    ∃ j : Instr, j.wellFormed = true ∧ opcode j = opcode i ∧ lowField j = n := by
  cases i with
  | rdReg a => exact ⟨.rdReg n, decide_eq_true hn, rfl, rfl⟩
  | setProfile f =>
    obtain rfl | rfl : n = 0 ∨ n = 1 := by simp only [opcode, operandBits] at hn; omega
    · exact ⟨.setProfile .f1, rfl, rfl, rfl⟩
    · exact ⟨.setProfile .f2, rfl, rfl, rfl⟩
  | nop | configure | reset | process | process2 | calSatA3 | calPower | calLowScale | calBlendRatio | calLowThresh
    | calCurvePower | calKneeThresh | calKneeAmount =>
    obtain rfl : n = 0 := Nat.lt_one_iff.mp hn
    exact ⟨_, hi, rfl, rfl⟩

/-! ### What the decoder reads (R107) -/

/-- The command `i` is well formed and stands in the word `w`: its opcode over its low field. -/
def StandsIn (i : Instr) (w : CmdWord) : Prop :=
  i.wellFormed = true ∧ w.toNat = opcode i * 2 ^ 24 + lowField i

theorem standsIn_of_fields {i : Instr} {w : CmdWord} (hwf : i.wellFormed = true) (hop : w.toNat / 2 ^ 24 = opcode i)
    (hlow : w.toNat % 2 ^ 24 = lowField i) : StandsIn i w := ⟨hwf, by omega⟩

theorem standsIn_of_decodeN {w : CmdWord} {i j : Instr} (h : decodeN w i = .ok j) (hwf : i.wellFormed = true)
    (hlow : lowField i = 0) (hop : w.toNat / 2 ^ 24 = opcode i) : StandsIn j w := by
  unfold decodeN at h
  split at h
  · cases h
    exact standsIn_of_fields hwf hop (by omega)
  · cases h

theorem standsIn_of_decodeF {w : CmdWord} {j : Instr} (h : decodeF w = .ok j) (hop : w.toNat / 2 ^ 24 = 0x02) :
    StandsIn j w := by
  unfold decodeF at h
  split at h
  · cases h
    split
    · exact standsIn_of_fields rfl hop (by simp only [lowField]; omega)
    · exact standsIn_of_fields rfl hop (by simp only [lowField]; omega)
  · cases h

theorem standsIn_of_decodeA {w : CmdWord} {j : Instr} (h : decodeA w = .ok j) (hop : w.toNat / 2 ^ 24 = 0x06) :
    StandsIn j w := by
  unfold decodeA at h
  split at h
  · cases h
    exact standsIn_of_fields (decide_eq_true (Nat.mod_lt _ (by decide))) hop (by simp only [lowField]; omega)
  · cases h

/-- The decoder drops no bit of a word: what it reads stands in the word. Rows 0x02 and 0x06 are of formats F and A, the
others of format N. -/
theorem standsIn_of_decode {w : CmdWord} {i : Instr} (h : decode w = .ok i) : StandsIn i w := by
  unfold decode at h
  split at h
  case h_3 hop => exact standsIn_of_decodeF h hop
  case h_7 hop => exact standsIn_of_decodeA h hop
  case h_16 => cases h
  all_goals exact standsIn_of_decodeN h rfl rfl ‹_›

theorem StandsIn.encode_eq {i : Instr} {w : CmdWord} (h : StandsIn i w) : encode i = w := by
  rw [encode, ← h.2, BitVec.ofNat_toNat, BitVec.setWidth_eq]

/-- Settles O1: what the decoder reads stands in the word, and a word is read back as the command it encodes. -/
theorem decodeInvertsEncode : Obligations.DecodeInvertsEncode := by
  refine fun w i => ⟨fun h => ?_, ?_⟩
  · have hi := standsIn_of_decode h
    exact ⟨hi.1, hi.encode_eq⟩
  · rintro ⟨hwf, rfl⟩
    exact Machine.decode_encode hwf

theorem decode_eq_ok_iff {w : CmdWord} {i : Instr} : decode w = .ok i ↔ StandsIn i w :=
  ⟨standsIn_of_decode, fun h => (decodeInvertsEncode w i).mpr ⟨h.1, h.encode_eq⟩⟩

/-- A word spells a command of an opcode exactly when the opcode is assigned and stands in bits [31:24], and the bits
that its format does not leave free are zero. -/
theorem decodes_to_opcode_iff {w : CmdWord} {op : Nat} :
    (∃ i, decode w = .ok i ∧ opcode i = op) ↔
      Assigned op ∧ w.toNat / 2 ^ 24 = op ∧ w.toNat % 2 ^ 24 < 2 ^ operandBits op := by
  constructor
  · rintro ⟨i, hi, rfl⟩
    obtain ⟨hwf, hw⟩ := decode_eq_ok_iff.mp hi
    have hlow := lowField_lt hwf
    refine ⟨assigned_opcode i, ?_⟩
    rcases operandBits_cases (opcode i) with hb | hb | hb <;> rw [hb] at hlow ⊢ <;> omega
  · rintro ⟨hop, hw, hlow⟩
    obtain ⟨i, hwf, rfl⟩ := exists_opcode hop
    obtain ⟨j, hj, hopj, hlowj⟩ := exists_lowField i hwf hlow
    exact ⟨j, decode_eq_ok_iff.mpr (standsIn_of_fields hj (hw.trans hopj.symm) hlowj.symm), hopj⟩

/-- Settles O5: each command stands in its word, and the other two words are refused by evaluation. -/
theorem sampleWordsDecode : Obligations.SampleWordsDecode := by
  have hok {w : CmdWord} {i : Instr} (hwf : i.wellFormed = true) (hw : encode i = w) : decode w = .ok i :=
    (decodeInvertsEncode w i).mpr ⟨hwf, hw⟩
  exact ⟨hok rfl rfl, hok rfl rfl, hok rfl rfl, hok rfl rfl, hok rfl rfl, hok rfl rfl, hok rfl rfl, hok rfl rfl,
    hok rfl rfl, hok rfl rfl, rfl, rfl⟩

/-! ### The match and mask columns (R106) -/

/-- A row's mask fixes every bit that its format does not leave free. -/
theorem rowMask_eq (i : Instr) : rowMask i = BitVec.allOnes 32 <<< operandBits (opcode i) := by
  cases i with
  | setProfile | rdReg => simp only [rowMask, opcode, operandBits]; decide
  | nop | configure | reset | process | process2 | calSatA3 | calPower | calLowScale | calBlendRatio | calLowThresh
    | calCurvePower | calKneeThresh | calKneeAmount => rfl

theorem rowMatch_toNat (i : Instr) : (rowMatch i).toNat = opcode i * 2 ^ 24 := by
  have hop := assigned_opcode i
  unfold Assigned at hop
  rw [rowMatch, BitVec.toNat_ofNat]
  omega

/-- Masking off the low `k` bits of a word. -/
theorem and_highMask_toNat (w : CmdWord) (k : Nat) :
    (w &&& BitVec.allOnes 32 <<< k).toNat = w.toNat / 2 ^ k * 2 ^ k := by
  have hle : w.toNat / 2 ^ k * 2 ^ k ≤ w.toNat := Nat.div_mul_le_self _ _
  rw [← BitVec.shiftLeft_ushiftRight, BitVec.toNat_shiftLeft, BitVec.toNat_ushiftRight, Nat.shiftRight_eq_div_pow,
    Nat.shiftLeft_eq, Nat.mod_eq_of_lt (hle.trans_lt w.isLt)]

/-- A word matches a row under its mask exactly when the row's opcode stands over free bits alone. -/
theorem and_rowMask_eq_rowMatch_iff {w : CmdWord} {i : Instr} :
    w &&& rowMask i = rowMatch i ↔
      w.toNat / 2 ^ 24 = opcode i ∧ w.toNat % 2 ^ 24 < 2 ^ operandBits (opcode i) := by
  rw [← BitVec.toNat_inj, rowMask_eq, and_highMask_toNat, rowMatch_toNat]
  rcases operandBits_cases (opcode i) with hb | hb | hb <;> rw [hb] <;> omega

/-- Settles O3: both sides say that the row's opcode stands over bits its format leaves free. -/
theorem wordSpellsRow : Obligations.WordSpellsRow := by
  refine ⟨fun w i _ => ?_, ?_⟩
  · rw [and_rowMask_eq_rowMatch_iff, decodes_to_opcode_iff, and_iff_right (assigned_opcode i)]
  · have hset (f : Formula) : rowMatch (.setProfile f) = 0x02000000#32 := by simp only [rowMatch, opcode]; decide
    have hrd (a : Nat) : rowMatch (.rdReg a) = 0x06000000#32 := by simp only [rowMatch, opcode]; decide
    exact ⟨⟨rfl, rfl⟩, ⟨rfl, rfl⟩, fun f => ⟨hset f, rfl⟩, ⟨rfl, rfl⟩, ⟨rfl, rfl⟩, ⟨rfl, rfl⟩, fun a => ⟨hrd a, rfl⟩,
      ⟨rfl, rfl⟩, ⟨rfl, rfl⟩, ⟨rfl, rfl⟩, ⟨rfl, rfl⟩, ⟨rfl, rfl⟩, ⟨rfl, rfl⟩, ⟨rfl, rfl⟩, ⟨rfl, rfl⟩⟩

/-! ### Illegal words (R108) -/

theorem illegal_iff {w : CmdWord} : (∃ e, decode w = .error e) ↔ ¬ ∃ i, decode w = .ok i := by
  cases decode w <;> simp

theorem legal_iff {w : CmdWord} : (∃ i, decode w = .ok i) ↔
    Assigned (w.toNat / 2 ^ 24) ∧ w.toNat % 2 ^ 24 < 2 ^ operandBits (w.toNat / 2 ^ 24) := by
  have h := decodes_to_opcode_iff (w := w) (op := w.toNat / 2 ^ 24)
  rw [eq_self, true_and] at h
  rw [← h]
  refine ⟨fun ⟨i, hi⟩ => ⟨i, hi, ?_⟩, fun ⟨i, hi, _⟩ => ⟨i, hi⟩⟩
  exact ((decodes_to_opcode_iff (w := w)).mp ⟨i, hi, rfl⟩).2.1.symm

/-- A bit field of a word as a number. -/
theorem bitField_toNat (w : CmdWord) (k n : Nat) : (w.extractLsb' k n).toNat = w.toNat / 2 ^ k % 2 ^ n := by
  rw [BitVec.extractLsb'_toNat, Nat.shiftRight_eq_div_pow]

/-- Settles O4, by the three formats: what `legal_iff` denies, in bit fields. -/
theorem illegalEncodings : Obligations.IllegalEncodings := by
  intro w
  have hw := w.isLt
  rw [illegal_iff, legal_iff, Assigned]
  simp only [ne_eq, ← BitVec.toNat_inj, bitField_toNat, BitVec.toNat_ofNat]
  by_cases hf : w.toNat / 2 ^ 24 = 0x02
  · have hfree : operandBits (w.toNat / 2 ^ 24) = 1 := congrArg operandBits hf
    rw [hfree]
    omega
  by_cases ha : w.toNat / 2 ^ 24 = 0x06
  · have hfree : operandBits (w.toNat / 2 ^ 24) = 12 := congrArg operandBits ha
    rw [hfree]
    omega
  · rw [operandBits_eq_zero hf ha]
    omega

end Sys2Proof

namespace Sys2Proof.Machine

/-! ### A `CMD` write of an illegal word (R107, R404) -/

theorem illegalCommand_of_no_fault {s : State} (hf : s.fault = none) :
    illegalCommand s = { s with fault := some .illegalCmd, ack := .fault } := by
  rw [illegalCommand, framed_error hf rfl, raiseFault, hf, Option.getD_none]

theorem illegalCommand_of_fault {s : State} (hf : s.fault.isSome = true) :
    illegalCommand s = { s with ack := .refused } := framed_refused hf

theorem step_of_illegal {s : State} {w : CmdWord} {rest : List HostEvent} {e : Illegal}
    (hp : s.pending = .write 0x00 (toLanes 4 w.toNat) :: rest) (he : decode w = .error e) :
    step s = .next (illegalCommand (s.latched rest w)) := by
  have hlanes : decodeBytes (toLanes 4 w.toNat) = .error e := (decodeBytes_toLanes w).trans he
  rw [step_of_write hp, hostWrite_cmd (toLanes_length _ _), issue_of_illegal hlanes, cmdOfLanes_toLanes, State.latched]

/-- Settles O7: the frame of R340 around a rule that raises ILLEGAL_CMD. -/
theorem illegalWordStep : Obligations.IllegalWordStep := by
  refine fun s w rest e hp he => ⟨fun hf => ?_, fun hf => ?_⟩
  · rw [step_of_illegal hp he, illegalCommand_of_no_fault (s := s.latched rest w) hf, State.latched]
  · rw [step_of_illegal hp he, illegalCommand_of_fault (s := s.latched rest w) hf, State.latched]

end Sys2Proof.Machine

/-! SUPPORT. The operand registers (spec/30_encoding.md R104). No stage of the pipeline reads them, and a command reads
`OP0` or `OP1` only as its operand; so each commutes with writing a register it does not use (`State.withOps`). -/

namespace Sys2Proof.Machine

/-- The state with other words in `OP0` and `OP1`. -/
def State.withOps (s : State) (a b : Word) : State := { s with op0 := a, op1 := b }

/-- What a stage that reads no operand register answers from a state with other operands. -/
def stageWithOps {α : Type} (r : α × State) (a b : Word) : α × State := (r.1, r.2.withOps a b)

section Operands

variable (s : State) (a b : Word)

@[simp] theorem withOps_par : (s.withOps a b).par = s.par := rfl
@[simp] theorem withOps_profile : (s.withOps a b).profile = s.profile := rfl
@[simp] theorem withOps_formula : (s.withOps a b).formula = s.formula := rfl

theorem stageWithOps_ite {α : Type} {c : Prop} [Decidable c] (q r : α × State) :
    stageWithOps (if c then q else r) a b = if c then stageWithOps q a b else stageWithOps r a b :=
  apply_ite (stageWithOps · a b) c q r

/-! ### The stages of the pipeline (R300 to R313) -/

theorem split_withOps (x : Word) : split (s.withOps a b) x = stageWithOps (split s x) a b := by
  simp only [Machine.split, shieldProcess, stageWithOps, State.withOps]

theorem blendEnvStep_withOps (v : Word) : blendEnvStep (s.withOps a b) v = (blendEnvStep s v).withOps a b := by
  simp only [blendEnvStep, State.withOps]

theorem hystAccept_withOps (r : JaResult) : hystAccept r (s.withOps a b) = stageWithOps (hystAccept r s) a b := by
  simp only [hystAccept, stageWithOps_ite]
  rfl

theorem hystStep_withOps (v : Word) : hystStep (s.withOps a b) v = stageWithOps (hystStep s v) a b :=
  hystAccept_withOps s a b _

theorem satStage_withOps (x : Word) : satStage (s.withOps a b) x = stageWithOps (satStage s x) a b := by
  simp only [satStage, stageWithOps_ite]
  rfl

theorem eqProcess_withOps (x : Word) : eqProcess (s.withOps a b) x = stageWithOps (eqProcess s x) a b := by
  simp only [eqProcess, withOps_profile]
  cases s.profile <;> rfl

theorem dispProcess_withOps (x : Word) : dispProcess (s.withOps a b) x = stageWithOps (dispProcess s x) a b := by
  simp only [dispProcess, stageWithOps_ite]
  rfl

theorem dcbProcess_withOps (x : Word) : dcbProcess (s.withOps a b) x = stageWithOps (dcbProcess s x) a b := rfl

theorem fadeStep_withOps (x : Word) : fadeStep (s.withOps a b) x = stageWithOps (fadeStep s x) a b := rfl

theorem azStep_withOps (p : Word) : azStep (s.withOps a b) p = stageWithOps (azStep s p) a b := rfl

theorem pipelineFront_withOps (x : Word) :
    pipelineFront (s.withOps a b) x = stageWithOps (pipelineFront s x) a b := by
  have hgain : gainStage (s.withOps a b) = gainStage s := rfl
  simp only [pipelineFront, hgain, split_withOps, stageWithOps, blendEnvStep_withOps, hystStep_withOps]
  rfl

theorem pipelineBack_withOps (bl c : Word) :
    pipelineBack (s.withOps a b) bl c = stageWithOps (pipelineBack s bl c) a b := by
  simp only [pipelineBack, satStage_withOps, eqProcess_withOps, dispProcess_withOps, dcbProcess_withOps,
    fadeStep_withOps, stageWithOps]

theorem pipeline_withOps (x : Word) : pipeline (s.withOps a b) x = stageWithOps (pipeline s x) a b := by
  simp only [pipeline, pipelineFront_withOps, stageWithOps, pipelineBack_withOps]

/-! ### The rules of the commands -/

theorem processed_withOps : processed (s.withOps s.op0 b) = (processed s).withOps s.op0 b := by
  have hsample : opSample (s.withOps s.op0 b) = opSample s := rfl
  simp only [processed, hsample, pipeline_withOps, stageWithOps]
  simp only [State.withOps]

theorem processed2_withOps : processed2 (s.withOps s.op0 b) = (processed2 s).withOps s.op0 b := by
  have hsample : opSample (s.withOps s.op0 b) = opSample s := rfl
  simp only [processed2, hsample, pipeline_withOps, azStep_withOps, stageWithOps]
  simp only [State.withOps]

theorem configureBody_withOps :
    configureBody (s.withOps s.op0 b) = (configureBody s).map (·.withOps s.op0 b) := by
  have hrate : opSampleRate (s.withOps s.op0 b) = opSampleRate s := rfl
  simp only [configureBody, hrate, withOps_par, withOps_profile, withOps_formula, apply_ite (Except.map _)]
  cases recomputeFull s.par (opSampleRate s) s.profile s.formula <;> rfl

theorem calibrate_withOps (put : Word → Tuning → Tuning) :
    calibrate put (s.withOps s.op0 b) = (calibrate put s).map (·.withOps s.op0 b) := by
  simp only [calibrate, apply_ite (Except.map _)]
  rfl

theorem regRead_withOps (r : Nat) : regRead (s.withOps a b) r = regRead s r := by
  have hvalue : regValue (s.withOps a b) = regValue s := by
    funext r
    cases r <;> rfl
  rw [regRead, hvalue, regRead]

/-! ### Commands -/

variable {s a b}

/-- A rule that commutes with writing the operand registers does so under the execution frame (R340). -/
theorem framed_withOps {body : State → Except FaultCode State}
    (h : body (s.withOps a b) = (body s).map (·.withOps a b)) :
    framed (s.withOps a b) body = (framed s body).withOps a b := by
  rcases framed_cases s body with ⟨hf, he⟩ | ⟨hf, t, ht, he⟩ | ⟨hf, c, hc, he⟩
  · rw [he, framed_refused (s := s.withOps a b) hf]
    rfl
  · rw [he, framed_ok (s := s.withOps a b) hf (by rw [h, ht]; rfl)]
    rfl
  · rw [he, framed_error (s := s.withOps a b) hf (by rw [h, hc]; rfl)]
    rfl

/-- The frame of PROCESS and PROCESS2: UNCONFIGURED outside state Ready, whatever the operands (R344, R345). -/
theorem framed_ready_withOps {f : State → State} (h : f (s.withOps a b) = (f s).withOps a b) :
    framed (s.withOps a b) (fun t => if t.isReady then .ok (f t) else .error .unconfigured) =
      (framed s fun t => if t.isReady then .ok (f t) else .error .unconfigured).withOps a b := by
  have hready : (s.withOps a b).isReady = s.isReady := rfl
  refine framed_withOps ?_
  rw [hready, h, apply_ite (Except.map _)]
  rfl

/-- NOP, RESET and RD_REG use neither operand register. -/
theorem exec_withOps_of_no_operand {i : Instr} {t : State} (hi : i = .nop ∨ i = .reset ∨ ∃ r, i = .rdReg r)
    (h : exec i s = .next t) (a b : Word) : exec i (s.withOps a b) = .next (t.withOps a b) := by
  rcases hi with rfl | rfl | ⟨r, rfl⟩
  · cases h
    rfl
  · cases h
    exact congrArg Host.Outcome.next (framed_withOps rfl)
  · have hread := regRead_withOps s a b r
    rcases execRdReg_cases r s with ⟨v, hv, he⟩ | ⟨hv, he⟩
    · cases he.symm.trans h
      simp only [exec, execRdReg, hread, hv]
      rfl
    · cases he.symm.trans h
      simp only [exec, execRdReg, hread, hv]
      rfl

/-- Every command but SET_PROFILE leaves `OP1` unused. -/
theorem exec_withOps_of_no_op1 {i : Instr} {t : State} (hi : ∀ f, i ≠ .setProfile f) (h : exec i s = .next t)
    (b : Word) : exec i (s.withOps s.op0 b) = .next (t.withOps s.op0 b) := by
  cases hcal : calPut i with
  | some put =>
    rw [exec_of_calPut hcal] at h ⊢
    cases h
    exact congrArg Host.Outcome.next (framed_withOps (calibrate_withOps s b put))
  | none =>
    cases i with
    | nop => exact exec_withOps_of_no_operand (.inl rfl) h _ _
    | reset => exact exec_withOps_of_no_operand (.inr (.inl rfl)) h _ _
    | rdReg r => exact exec_withOps_of_no_operand (.inr (.inr ⟨r, rfl⟩)) h _ _
    | configure =>
      cases h
      exact congrArg Host.Outcome.next (framed_withOps (configureBody_withOps s b))
    | process =>
      cases h
      exact congrArg Host.Outcome.next (framed_ready_withOps (processed_withOps s b))
    | process2 =>
      cases h
      exact congrArg Host.Outcome.next (framed_ready_withOps (processed2_withOps s b))
    | setProfile f => exact absurd rfl (hi f)
    | calSatA3 | calPower | calLowScale | calBlendRatio | calLowThresh | calCurvePower | calKneeThresh
      | calKneeAmount => cases hcal

/-- No command writes an operand register (R30). -/
theorem exec_operands {i : Instr} {t : State} (h : exec i s = .next t) : t.op0 = s.op0 ∧ t.op1 = s.op1 := by
  rcases exec_effect h with ⟨-, he⟩ | ⟨u, hu, rfl⟩
  · rw [he]
    exact ⟨rfl, rfl⟩
  · exact ⟨hu.sameHost.op0, hu.sameHost.op1⟩

end Operands

/-- Settles O44: a command commutes with writing an operand register it does not use, and keeps the other one. -/
theorem unusedOperands : Obligations.UnusedOperands := by
  refine ⟨fun i s t v hi h => ?_, fun i s t v hi h => ?_⟩
  · have ht : t.withOps s.op0 v = { t with op1 := v } := by rw [← (exec_operands h).1, State.withOps]
    exact (exec_withOps_of_no_op1 hi h v).trans (congrArg Host.Outcome.next ht)
  · have ht : t.withOps v s.op1 = { t with op0 := v } := by rw [← (exec_operands h).2, State.withOps]
    exact (exec_withOps_of_no_operand hi h v s.op1).trans (congrArg Host.Outcome.next ht)

end Sys2Proof.Machine

/-! SUPPORT. A biquad bank against its chain of section inputs (spec/40_biquad.md R152): the run before the guard
commits each section's candidate state on the chain, and passes when every output and every candidate is finite. -/

namespace Sys2Proof.Machine

/-- A section with the candidate state of the input `v` written (R141). -/
def Biquad.committed (b : Biquad) (v : Word) : Biquad := { b with z1 := (bqProcess b v).2.1, z2 := (bqProcess b v).2.2 }

/-- A bank with every section's candidate state written, each on its own input. -/
def bankCommitted (bank : List Biquad) (x : Word) : List Biquad := List.zipWith Biquad.committed bank (bankChain bank x)

/-- What the guard of a bank asks for: every section's output and every candidate state is finite (R152). -/
def bankPasses (bank : List Biquad) (x : Word) : Bool :=
  (bankChain bank x).tail.all F64.isFinite &&
    (bankCommitted bank x).all (fun b => F64.isFinite b.z1 && F64.isFinite b.z2)

/-- The chain begins with the bank's input. -/
theorem bankChain_eq_cons (bank : List Biquad) (x : Word) : bankChain bank x = x :: (bankChain bank x).tail := by
  cases bank <;> rfl

theorem bankCommitted_cons (b : Biquad) (bs : List Biquad) (x : Word) :
    bankCommitted (b :: bs) x = b.committed x :: bankCommitted bs (bqProcess b x).1 := rfl

/-- The output of the first section comes before the outputs of the others. -/
theorem bankPasses_cons (b : Biquad) (bs : List Biquad) (x : Word) :
    bankPasses (b :: bs) x = (F64.isFinite (bqProcess b x).1 && F64.isFinite (bqProcess b x).2.1 &&
      F64.isFinite (bqProcess b x).2.2 && bankPasses bs (bqProcess b x).1) := by
  have hchain := congrArg (List.all · F64.isFinite) (bankChain_eq_cons bs (bqProcess b x).1)
  simp only [List.all_cons] at hchain
  simp only [bankPasses, bankCommitted_cons, bankChain, List.tail_cons, List.all_cons, Biquad.committed, hchain]
  ac_rfl

theorem bankRun_eq (bank : List Biquad) (x : Word) :
    bankRun bank x = ((bankChain bank x).getLastD x, bankCommitted bank x, bankPasses bank x) := by
  induction bank generalizing x with
  | nil => rfl
  | cons b bs ih =>
    have hlast : (bankChain (b :: bs) x).getLastD x = (bankChain bs (bqProcess b x).1).getLastD (bqProcess b x).1 := by
      rw [bankChain, bankChain_eq_cons bs]
      simp only [List.getLastD_cons]
    simp only [bankRun, ih, hlast, bankCommitted_cons, bankPasses_cons, Biquad.committed]

/-- Settles O49: the guard decides between the run, which is the chain's, and the bank as it was. -/
theorem bankGuard : Obligations.BankGuard := by
  intro bank x
  change bankProcess bank x =
    if bankPasses bank x then ((bankChain bank x).getLastD x, bankCommitted bank x) else (x, bank)
  rw [bankProcess, bankRun_eq]

end Sys2Proof.Machine

/-! SUPPORT. Binary64 arithmetic with zeros and ones (spec/00_scope.md R12, R14): a sum, a difference and a product with
a zero, a product and a quotient with 1.0, a number divided by itself, and what a finite result says of the operands. -/

namespace Sys2Proof.Machine

/-! ### Finite operands and finite results -/

/-- A word that is neither a NaN nor an infinity is finite. -/
theorem F64.isFinite_eq (w : Word) : F64.isFinite w = (!F64.isNaN w && !F64.isInf w) := by
  rw [Bool.eq_iff_iff]
  simp only [F64.isFinite, F64.isNaN, F64.isInf, Bool.and_eq_true, Bool.not_eq_true', decide_eq_true_eq,
    decide_eq_false_iff_not]
  omega

theorem F64.isFinite_nan : F64.isFinite F64.nan = false := by decide

theorem F64.isFinite_pack_infPat (b : Bool) : F64.isFinite (F64.pack b F64.infPat) = false := by cases b <;> decide

/-- A finite sum has finite operands. -/
theorem F64.finite_of_add {a b : Word} (h : F64.isFinite (F64.add a b) = true) :
    F64.isFinite a = true ∧ F64.isFinite b = true := by
  unfold F64.add at h
  split_ifs at h
  · simp [F64.isFinite_nan] at h
  · simp [F64.isFinite_nan] at h
  all_goals simp_all [F64.isFinite_eq]

theorem F64.finite_of_sub {a b : Word} (h : F64.isFinite (F64.sub a b) = true) :
    F64.isFinite a = true ∧ F64.isFinite b = true := by
  simpa using F64.finite_of_add h

/-- A finite product has finite factors. -/
theorem F64.finite_of_mul {a b : Word} (h : F64.isFinite (F64.mul a b) = true) :
    F64.isFinite a = true ∧ F64.isFinite b = true := by
  unfold F64.mul at h
  split_ifs at h
  · simp [F64.isFinite_nan] at h
  · simp [F64.isFinite_nan] at h
  · simp [F64.isFinite_pack_infPat] at h
  · simp_all [F64.isFinite_eq]

/-- A finite quotient has a finite dividend, and a divisor that is not a zero. -/
theorem F64.finite_of_div {a b : Word} (h : F64.isFinite (F64.div a b) = true) :
    F64.isFinite a = true ∧ F64.isZero b = false := by
  unfold F64.div at h
  split_ifs at h with hnan hainf hbinf hbinf hz hz'
  · simp [F64.isFinite_nan] at h
  · simp [F64.isFinite_nan] at h
  · simp [F64.isFinite_pack_infPat] at h
  · have hb : F64.isZero b = false := by
      simp only [F64.isInf, decide_eq_true_eq] at hbinf
      simp [F64.isZero, hbinf, F64.infPat]
    simp_all [F64.isFinite_eq]
  · simp [F64.isFinite_nan] at h
  · simp [F64.isFinite_pack_infPat] at h
  · simp_all [F64.isFinite_eq]

theorem F64.add_of_finite {a b : Word} (ha : F64.isFinite a = true) (hb : F64.isFinite b = true) :
    F64.add a b = if F64.value a + F64.value b = 0 then F64.pack (F64.isNeg a && F64.isNeg b) 0
      else F64.pack (decide (F64.value a + F64.value b < 0))
        (F64.roundMag (F64.value a + F64.value b).natAbs 0 false) := by
  simp only [F64.add, F64.isNaN_of_isFinite ha, F64.isNaN_of_isFinite hb, F64.isInf_of_isFinite ha,
    F64.isInf_of_isFinite hb, Bool.or_self, Bool.false_eq_true, if_false]

theorem F64.mul_of_finite {a b : Word} (ha : F64.isFinite a = true) (hb : F64.isFinite b = true) :
    F64.mul a b = F64.pack (F64.isNeg a != F64.isNeg b) (F64.roundMag (F64.mag a * F64.mag b) 1074 false) := by
  simp only [F64.mul, F64.isNaN_of_isFinite ha, F64.isNaN_of_isFinite hb, F64.isInf_of_isFinite ha,
    F64.isInf_of_isFinite hb, Bool.or_self, Bool.false_eq_true, if_false]

theorem F64.div_of_finite {a b : Word} (ha : F64.isFinite a = true) (hb : F64.isFinite b = true)
    (hz : F64.isZero b = false) : F64.div a b = F64.pack (F64.isNeg a != F64.isNeg b)
      (F64.roundMag ((F64.mag a <<< 1076) / F64.mag b) 2 (decide ((F64.mag a <<< 1076) % F64.mag b ≠ 0))) := by
  simp only [F64.div, F64.isNaN_of_isFinite ha, F64.isNaN_of_isFinite hb, F64.isInf_of_isFinite ha,
    F64.isInf_of_isFinite hb, hz, Bool.or_self, Bool.false_eq_true, if_false]

/-! ### Zeros -/

theorem F64.isZero_iff {w : Word} : F64.isZero w = true ↔ F64.pat w = 0 := by simp [F64.isZero]

theorem F64.isZero_zero : F64.isZero Lit.zero = true := by decide

theorem F64.isZero_pack_zero (b : Bool) : F64.isZero (F64.pack b 0) = true := by cases b <;> decide

theorem F64.isFinite_of_isZero {w : Word} (h : F64.isZero w = true) : F64.isFinite w = true := by
  rw [F64.isFinite_iff, F64.isZero_iff.mp h]
  decide

theorem F64.mag_eq_zero_iff {w : Word} : F64.mag w = 0 ↔ F64.isZero w = true := by
  rw [F64.isZero_iff, F64.mag]
  split
  · rfl
  · rw [Nat.shiftLeft_eq, Nat.mul_eq_zero]
    have := Nat.two_pow_pos (F64.pat w / 2 ^ 52 - 1)
    omega

theorem F64.natAbs_value (w : Word) : (F64.value w).natAbs = F64.mag w := by
  unfold F64.value
  split <;> simp

theorem F64.value_eq_zero_iff {w : Word} : F64.value w = 0 ↔ F64.isZero w = true := by
  rw [← F64.mag_eq_zero_iff, ← F64.natAbs_value, Int.natAbs_eq_zero]

/-- The sign of a number that is not a zero is that of its value. -/
theorem F64.value_neg_iff {w : Word} (hz : F64.isZero w = false) : F64.value w < 0 ↔ F64.isNeg w = true := by
  have hmag : F64.mag w ≠ 0 := by simp [F64.mag_eq_zero_iff, hz]
  unfold F64.value
  cases F64.isNeg w
  · simp
  · simpa using Nat.pos_of_ne_zero hmag

theorem F64.isZero_add {a b : Word} (ha : F64.isZero a = true) (hb : F64.isZero b = true) :
    F64.isZero (F64.add a b) = true := by
  rw [F64.add_of_finite (F64.isFinite_of_isZero ha) (F64.isFinite_of_isZero hb), F64.value_eq_zero_iff.mpr ha,
    F64.value_eq_zero_iff.mpr hb, if_pos (Int.add_zero 0)]
  exact F64.isZero_pack_zero _

theorem F64.isZero_sub {a b : Word} (ha : F64.isZero a = true) (hb : F64.isZero b = true) :
    F64.isZero (F64.sub a b) = true := F64.isZero_add ha (by simpa using hb)

/-- A zero of either sign plus +0.0. -/
theorem F64.add_zero_of_isZero {a : Word} (ha : F64.isZero a = true) : F64.add a Lit.zero = Lit.zero := by
  have hneg : F64.isNeg Lit.zero = false := by decide
  rw [F64.add_of_finite (F64.isFinite_of_isZero ha) F64.isFinite_zero, F64.value_eq_zero_iff.mpr ha, F64.value_zero,
    if_pos (Int.add_zero 0), hneg, Bool.and_false]
  rfl

theorem F64.add_comm_of_finite {a b : Word} (ha : F64.isFinite a = true) (hb : F64.isFinite b = true) :
    F64.add a b = F64.add b a := by
  rw [F64.add_of_finite ha hb, F64.add_of_finite hb ha, Int.add_comm, Bool.and_comm]

/-- A zero of either sign does not change a number that is not a zero. -/
theorem F64.add_eq_left {a z : Word} (ha : F64.isFinite a = true) (haz : F64.isZero a = false)
    (hz : F64.isZero z = true) : F64.add a z = a := by
  have hval : F64.value a ≠ 0 := by simp [F64.value_eq_zero_iff, haz]
  have hsign : decide (F64.value a < 0) = F64.isNeg a := by simp [F64.value_neg_iff haz]
  have hround := F64.roundMag_mag (Nat.zero_le _) ha
  rw [Nat.pow_zero, Nat.mul_one] at hround
  rw [F64.add_of_finite ha (F64.isFinite_of_isZero hz), F64.value_eq_zero_iff.mpr hz, Int.add_zero, if_neg hval, hsign,
    F64.natAbs_value, hround, F64.pack_self]

theorem F64.add_eq_right {a z : Word} (ha : F64.isFinite a = true) (haz : F64.isZero a = false)
    (hz : F64.isZero z = true) : F64.add z a = a :=
  (F64.add_comm_of_finite (F64.isFinite_of_isZero hz) ha).trans (F64.add_eq_left ha haz hz)

theorem F64.mul_comm (a b : Word) : F64.mul a b = F64.mul b a := by
  simp only [F64.mul, Bool.or_comm (F64.isNaN a), Bool.or_comm (F64.isInf a), Bool.or_comm (F64.isZero a),
    bne_comm (a := F64.isNeg a), Nat.mul_comm (F64.mag a)]

/-- A minus sign moves from one factor to the other. -/
theorem F64.neg_mul (a b : Word) : F64.mul (F64.neg a) b = F64.mul a (F64.neg b) := by
  have hinf (w : Word) : F64.isInf (F64.neg w) = F64.isInf w := by simp [F64.isInf]
  have hsign : (F64.isNeg (F64.neg a) != F64.isNeg b) = (F64.isNeg a != F64.isNeg (F64.neg b)) := by simp
  simp only [F64.mul, F64.isNaN_neg, hinf, F64.isZero_neg, hsign, F64.mag_neg]

theorem F64.isZero_mul {a z : Word} (ha : F64.isFinite a = true) (hz : F64.isZero z = true) :
    F64.isZero (F64.mul a z) = true := by
  have hround : F64.roundMag 0 1074 false = 0 := by decide +kernel
  rw [F64.mul_of_finite ha (F64.isFinite_of_isZero hz), F64.mag_eq_zero_iff.mpr hz, Nat.mul_zero, hround]
  exact F64.isZero_pack_zero _

theorem F64.isZero_div {z a : Word} (hz : F64.isZero z = true) (ha : F64.isFinite a = true)
    (haz : F64.isZero a = false) : F64.isZero (F64.div z a) = true := by
  have hround : F64.roundMag 0 2 (decide (0 ≠ 0)) = 0 := by decide +kernel
  rw [F64.div_of_finite (F64.isFinite_of_isZero hz) ha haz, F64.mag_eq_zero_iff.mpr hz, Nat.zero_shiftLeft,
    Nat.zero_div, Nat.zero_mod, hround]
  exact F64.isZero_pack_zero _

/-! ### Equal numbers -/

theorem F64.eq_iff {a b : Word} : F64.eq a b = true ↔
    F64.isNaN a = false ∧ F64.isNaN b = false ∧ F64.value a = F64.value b := by
  simp [F64.eq, and_assoc]

theorem F64.eq_self {a : Word} (h : F64.isFinite a = true) : F64.eq a a = true :=
  F64.eq_iff.mpr ⟨F64.isNaN_of_isFinite h, F64.isNaN_of_isFinite h, rfl⟩

theorem F64.eq_of_isZero {a b : Word} (ha : F64.isZero a = true) (hb : F64.isZero b = true) : F64.eq a b = true :=
  F64.eq_iff.mpr ⟨F64.isNaN_of_isFinite (F64.isFinite_of_isZero ha),
    F64.isNaN_of_isFinite (F64.isFinite_of_isZero hb),
    (F64.value_eq_zero_iff.mpr ha).trans (F64.value_eq_zero_iff.mpr hb).symm⟩

/-- An infinity has a greater magnitude than any finite number. -/
theorem F64.mag_lt_of_isFinite {a b : Word} (ha : F64.isFinite a = true) (hb : F64.isFinite b = false) :
    F64.mag a < F64.mag b := by
  rw [F64.isFinite_iff] at ha
  have hinf : F64.infPat ≤ F64.pat b := by simpa [F64.isFinite] using hb
  have hlast : F64.mag (F64.pack false (F64.infPat - 1)) < F64.mag (F64.pack false F64.infPat) := by decide +kernel
  calc F64.mag a = F64.mag (F64.pack false (F64.pat a)) := F64.mag_eq_pack a
    _ ≤ F64.mag (F64.pack false (F64.infPat - 1)) := F64.mag_mono (by decide) (by omega)
    _ < F64.mag (F64.pack false F64.infPat) := hlast
    _ ≤ F64.mag (F64.pack false (F64.pat b)) := F64.mag_mono (F64.pat_lt b) hinf
    _ = F64.mag b := (F64.mag_eq_pack b).symm

/-- Equal numbers are one word, or two zeros. -/
theorem F64.eq_cases {a b : Word} (ha : F64.isFinite a = true) (h : F64.eq a b = true) :
    a = b ∨ (F64.isZero a = true ∧ F64.isZero b = true) := by
  obtain ⟨-, -, hval⟩ := F64.eq_iff.mp h
  have hmag : F64.mag a = F64.mag b := by rw [← F64.natAbs_value, hval, F64.natAbs_value]
  have hb : F64.isFinite b = true := by
    by_contra hinf
    exact absurd hmag (Nat.ne_of_lt (F64.mag_lt_of_isFinite ha (Bool.eq_false_iff.mpr hinf)))
  cases hz : F64.isZero a with
  | true => exact .inr ⟨rfl, F64.mag_eq_zero_iff.mp (hmag ▸ F64.mag_eq_zero_iff.mpr hz)⟩
  | false =>
    have hbz : F64.isZero b = false := by
      rw [← hz, Bool.eq_iff_iff, ← F64.mag_eq_zero_iff, ← F64.mag_eq_zero_iff, hmag]
    have hneg : F64.isNeg a = F64.isNeg b := by
      rw [Bool.eq_iff_iff, ← F64.value_neg_iff hz, ← F64.value_neg_iff hbz, hval]
    have hpat : F64.pat a = F64.pat b := by
      rw [F64.mag_eq_pack a, F64.mag_eq_pack b] at hmag
      exact F64.pat_eq_of_mag_eq (F64.isFinite_iff.mp ha) (F64.isFinite_iff.mp hb) hmag
    exact .inl (by rw [← F64.pack_self a, hneg, hpat, F64.pack_self])

/-- A finite number less itself is +0.0. -/
theorem F64.sub_self {a : Word} (ha : F64.isFinite a = true) : F64.sub a a = Lit.zero := by
  rw [F64.sub, F64.add_of_finite ha (by simpa using ha), F64.value_neg, Int.add_right_neg, if_pos rfl, F64.isNeg_neg,
    Bool.and_not_self]
  rfl

/-- The difference of equal numbers is a zero. -/
theorem F64.isZero_sub_of_eq {a b : Word} (ha : F64.isFinite a = true) (h : F64.eq a b = true) :
    F64.isZero (F64.sub a b) = true := by
  rcases F64.eq_cases ha h with rfl | ⟨haz, hbz⟩
  · rw [F64.sub_self ha]
    exact F64.isZero_zero
  · exact F64.isZero_sub haz hbz

/-- Equal factors give equal products. -/
theorem F64.eq_mul {a b x : Word} (h : F64.eq a b = true) (hfin : F64.isFinite (F64.mul a x) = true) :
    F64.eq (F64.mul a x) (F64.mul b x) = true := by
  obtain ⟨ha, hx⟩ := F64.finite_of_mul hfin
  rcases F64.eq_cases ha h with rfl | ⟨haz, hbz⟩
  · exact F64.eq_self hfin
  · rw [F64.mul_comm a, F64.mul_comm b]
    exact F64.eq_of_isZero (F64.isZero_mul hx haz) (F64.isZero_mul hx hbz)

/-! ### Products and quotients with 1.0 -/

theorem F64.mag_one : F64.mag Lit.one = 2 ^ 1074 := by decide +kernel

theorem F64.isFinite_one : F64.isFinite Lit.one = true := by decide

theorem F64.mul_one {a : Word} (ha : F64.isFinite a = true) : F64.mul a Lit.one = a := by
  have hneg : F64.isNeg Lit.one = false := by decide
  rw [F64.mul_of_finite ha F64.isFinite_one, F64.mag_one, F64.roundMag_mag (by decide) ha, hneg, Bool.bne_false,
    F64.pack_self]

theorem F64.one_mul {a : Word} (ha : F64.isFinite a = true) : F64.mul Lit.one a = a := by
  rw [F64.mul_comm, F64.mul_one ha]

/-- Dividing a shifted number by a power of two shifts it less far. -/
theorem shiftLeft_div_one_shiftLeft (n i k : Nat) :
    (n <<< (i + k)) / (1 <<< k) = n * 2 ^ i ∧ (n <<< (i + k)) % (1 <<< k) = 0 := by
  rw [Nat.shiftLeft_eq, Nat.one_shiftLeft, Nat.pow_add, ← Nat.mul_assoc]
  exact ⟨Nat.mul_div_cancel _ (Nat.two_pow_pos k), Nat.mul_mod_left _ _⟩

/-- Dividing a shifted number by itself leaves the shift. -/
theorem shiftLeft_div_self {n : Nat} (hn : 0 < n) (k : Nat) : (n <<< k) / n = 1 <<< k ∧ (n <<< k) % n = 0 := by
  rw [Nat.shiftLeft_eq, Nat.one_shiftLeft]
  exact ⟨Nat.mul_div_cancel_left _ hn, Nat.mul_mod_right _ _⟩

theorem F64.div_one {a : Word} (ha : F64.isFinite a = true) : F64.div a Lit.one = a := by
  have hneg : F64.isNeg Lit.one = false := by decide
  have hone : F64.mag Lit.one = 1 <<< 1074 := by decide +kernel
  have hexact : decide (0 ≠ 0) = false := by decide
  obtain ⟨hdiv, hmod⟩ := shiftLeft_div_one_shiftLeft (F64.mag a) 2 1074
  rw [F64.div_of_finite ha F64.isFinite_one (by decide), hone, hdiv, hmod, hexact, F64.roundMag_mag (by decide) ha,
    hneg, Bool.bne_false, F64.pack_self]

theorem F64.div_self {a : Word} (ha : F64.isFinite a = true) (hz : F64.isZero a = false) :
    F64.div a a = Lit.one := by
  have hpos : 0 < F64.mag a := Nat.pos_of_ne_zero (by simp [F64.mag_eq_zero_iff, hz])
  have hone : F64.pack false (F64.roundMag (1 <<< 1076) 2 (decide (0 ≠ 0))) = Lit.one := by decide +kernel
  obtain ⟨hdiv, hmod⟩ := shiftLeft_div_self hpos 1076
  rw [F64.div_of_finite ha ha hz, hdiv, hmod, bne_self_eq_false, hone]

/-! ### Flushing to zero (R14) -/

theorem ftz_of_isZero {v : Word} (h : F64.isZero v = true) : ftz v = v := by
  simp [ftz, F64.eq_of_isZero h F64.isZero_zero]

/-- A value of normal magnitude passes. -/
theorem ftz_of_ge {v : Word} (h : F64.le Config.ftzMin (F64.abs v) = true) : ftz v = v := by
  obtain ⟨-, -, hle⟩ := F64.le_iff.mp h
  simp [ftz, F64.lt, hle]

/-- A smaller value is flushed. -/
theorem isZero_ftz_of_lt {v : Word} (hfin : F64.isFinite v = true) (h : F64.lt (F64.abs v) Config.ftzMin = true) :
    F64.isZero (ftz v) = true := by
  unfold ftz
  cases heq : F64.eq v Lit.zero with
  | true =>
    rcases F64.eq_cases hfin heq with rfl | ⟨hz, -⟩
    · decide
    · simpa using hz
  | false => simp [h, F64.isZero_zero]

/-- Flushing hides no infinity and no NaN. -/
theorem finite_of_ftz {v : Word} (h : F64.isFinite (ftz v) = true) : F64.isFinite v = true := by
  unfold ftz at h
  split at h
  · rename_i hsmall
    obtain ⟨-, hlt⟩ := Bool.and_eq_true_iff.mp hsmall
    obtain ⟨-, -, hval⟩ := F64.lt_iff.mp hlt
    rw [F64.value_of_not_neg (F64.isNeg_abs v), F64.mag_abs,
      F64.value_of_not_neg (by decide : F64.isNeg Config.ftzMin = false)] at hval
    by_contra hinf
    have := F64.mag_lt_of_isFinite (by decide : F64.isFinite Config.ftzMin = true) (Bool.eq_false_iff.mpr hinf)
    omega
  · exact h

/-- A value of normal magnitude is not a zero. -/
theorem F64.isZero_eq_false_of_ge {v : Word} (h : F64.le Config.ftzMin (F64.abs v) = true) : F64.isZero v = false := by
  obtain ⟨-, -, hle⟩ := F64.le_iff.mp h
  have hmin : 0 < F64.value Config.ftzMin := by decide +kernel
  rw [F64.value_of_not_neg (F64.isNeg_abs v), F64.mag_abs] at hle
  rw [Bool.eq_false_iff, ne_eq, ← F64.mag_eq_zero_iff]
  omega

end Sys2Proof.Machine

/-! SUPPORT. Identity sections (spec/40_biquad.md R141, R149, R150, R152): a bell and a high shelf of 0 dB are designed
as one, and what such a section with zero state answers to an input of normal magnitude and to a smaller one. -/

namespace Sys2Proof.Machine

/-! ### Designs of 0 dB (R149, R150) -/

/-- The coefficients of an identity: `b0 = 1`, `b1 = a1` but for a zero's sign, and `b2 = a2`. -/
def Coeffs.IsIdentity (c : Coeffs) : Prop := c.b0 = Lit.one ∧ F64.eq c.b1 c.a1 = true ∧ c.b2 = c.a2

theorem Coeffs.finite_iff {c : Coeffs} : c.finite = true ↔ F64.isFinite c.b0 = true ∧ F64.isFinite c.b1 = true ∧
    F64.isFinite c.b2 = true ∧ F64.isFinite c.a1 = true ∧ F64.isFinite c.a2 = true := by
  simp only [Coeffs.finite, Bool.and_eq_true, and_assoc]

theorem bqDesign_byKind {L : NumLibChoice} {d : Descriptor} {fs : Word} {c : Coeffs} (h : bqDesign L d fs = some c) :
    designByKind L d fs = some c := by
  unfold bqDesign at h
  split_ifs at h
  split at h
  · split_ifs at h
    rwa [← h]
  · cases h

theorem designByKind_bell {L : NumLibChoice} {d : Descriptor} {fs : Word} {c : Coeffs} (hk : d.kind = 3)
    (h : designByKind L d fs = some c) : c = designBell L d fs := by
  have hcode : d.kind.toNat = 3 := congrArg BitVec.toNat hk
  simp only [designByKind, hcode] at h
  split_ifs at h
  exact (Option.some.inj h).symm

theorem designByKind_hshelf {L : NumLibChoice} {d : Descriptor} {fs : Word} {c : Coeffs} (hk : d.kind = 4)
    (h : designByKind L d fs = some c) : c = designHshelf L d fs := by
  have hcode : d.kind.toNat = 4 := congrArg BitVec.toNat hk
  simp only [designByKind, hcode] at h
  split_ifs at h
  exact (Option.some.inj h).symm

/-- The gain factor `A` of 0 dB, in every library (R13, R145). -/
theorem designGain_of_zero_dB (L : NumLibChoice) {d : Descriptor} (h : F64.isZero d.gdb = true) :
    designGain L d = Lit.one :=
  NumLibChoice.pow_zero L _ (F64.isZero_div h (by decide) (by decide))

/-- With `A = 1` the bell's `alpha × A` and `alpha / A` are one number, so numerator and denominator agree. -/
theorem designBell_isIdentity {L : NumLibChoice} {d : Descriptor} {fs : Word} (hg : designGain L d = Lit.one)
    (hfin : (designBell L d fs).finite = true) : (designBell L d fs).IsIdentity := by
  obtain ⟨hb0, hb1, -, -, -⟩ := Coeffs.finite_iff.mp hfin
  simp only [Coeffs.IsIdentity, designBell, hg] at hb0 hb1 ⊢
  obtain ⟨hnum, hden⟩ := F64.finite_of_div hb0
  obtain ⟨halpha, -⟩ := F64.finite_of_mul (F64.finite_of_add hnum).2
  rw [F64.mul_one halpha] at hnum ⊢
  rw [F64.div_one halpha] at hb1 hden ⊢
  exact ⟨F64.div_self hnum hden, F64.eq_self hb1, rfl⟩

/-- The two ways in which the high shelf of `A = 1` writes its coefficient of `z^-1`: the sign stands outside or inside
the sum, and only a zero shows the difference. -/
theorem shelf_middle_eq {w a0 : Word} (ha0 : F64.isFinite a0 = true) (hz : F64.isZero a0 = false)
    (hfin : F64.isFinite (F64.div (F64.mul Lit.negTwo (F64.add Lit.zero w)) a0) = true) :
    F64.eq (F64.div (F64.mul Lit.negTwo (F64.add Lit.zero w)) a0)
      (F64.div (F64.mul Lit.two (F64.sub Lit.zero w)) a0) = true := by
  have hw : F64.isFinite w = true := (F64.finite_of_add (F64.finite_of_mul (F64.finite_of_div hfin).1).2).2
  cases hwz : F64.isZero w with
  | true =>
    have hadd := F64.isZero_add F64.isZero_zero hwz
    have hsub := F64.isZero_sub F64.isZero_zero hwz
    exact F64.eq_of_isZero (F64.isZero_div (F64.isZero_mul (by decide) hadd) ha0 hz)
      (F64.isZero_div (F64.isZero_mul (by decide) hsub) ha0 hz)
  | false =>
    have hadd : F64.add Lit.zero w = w := F64.add_eq_right hw hwz F64.isZero_zero
    have hsub : F64.sub Lit.zero w = F64.neg w :=
      F64.add_eq_right (by simpa using hw) (by simpa using hwz) F64.isZero_zero
    have hneg : Lit.negTwo = F64.neg Lit.two := by decide
    rw [hadd, hneg, F64.neg_mul] at hfin ⊢
    rw [hsub]
    exact F64.eq_self hfin

/-- With `A = 1` the high shelf's `A - 1` vanishes, so numerator and denominator agree. -/
theorem designHshelf_isIdentity {L : NumLibChoice} {d : Descriptor} {fs : Word} (hg : designGain L d = Lit.one)
    (hfin : (designHshelf L d fs).finite = true) : (designHshelf L d fs).IsIdentity := by
  have hup : F64.add Lit.one Lit.one = Lit.two := by decide +kernel
  have hdn : F64.sub Lit.one Lit.one = Lit.zero := F64.sub_self F64.isFinite_one
  have hroot : F64.mul Lit.two (F64.sqrt Lit.one) = Lit.two := by decide +kernel
  have htwo : F64.mul Lit.negTwo Lit.one = Lit.negTwo := F64.mul_one (by decide)
  obtain ⟨hb0, hb1, hb2, -, -⟩ := Coeffs.finite_iff.mp hfin
  simp only [Coeffs.IsIdentity, designHshelf, hg, hup, hdn, hroot, htwo] at hb0 hb1 hb2 ⊢
  have hcw : F64.isFinite (designCw L d fs) = true :=
    (F64.finite_of_mul (F64.finite_of_add (F64.finite_of_mul (F64.finite_of_div hb1).1).2).2).2
  have hzero : F64.isZero (F64.mul Lit.zero (designCw L d fs)) = true := by
    rw [F64.mul_comm]
    exact F64.isZero_mul hcw F64.isZero_zero
  have hp : F64.add Lit.two (F64.mul Lit.zero (designCw L d fs)) = Lit.two :=
    F64.add_eq_left (by decide) (by decide) hzero
  have hm : F64.sub Lit.two (F64.mul Lit.zero (designCw L d fs)) = Lit.two :=
    F64.add_eq_left (by decide) (by decide) (by simpa using hzero)
  rw [hp, hm] at hb0 hb2 ⊢
  rw [hm] at hb1
  obtain ⟨hnum, ha0z⟩ := F64.finite_of_div hb0
  obtain ⟨-, ha0⟩ := F64.finite_of_mul hnum
  obtain ⟨-, hdiff⟩ := F64.finite_of_mul (F64.finite_of_div hb2).1
  rw [F64.one_mul ha0, F64.one_mul hdiff]
  exact ⟨F64.div_self ha0 ha0z, shelf_middle_eq ha0 ha0z hb1, rfl⟩

theorem bqDesign_isIdentity {L : NumLibChoice} {d : Descriptor} {fs : Word} {c : Coeffs}
    (hgdb : F64.isZero d.gdb = true) (hkind : d.kind = 3 ∨ d.kind = 4) (h : bqDesign L d fs = some c) :
    c.IsIdentity := by
  have hg := designGain_of_zero_dB L hgdb
  have hfin := bqDesign_finite h
  rcases hkind with hk | hk
  · obtain rfl := designByKind_bell hk (bqDesign_byKind h)
    exact designBell_isIdentity hg hfin
  · obtain rfl := designByKind_hshelf hk (bqDesign_byKind h)
    exact designHshelf_isIdentity hg hfin

/-! ### The section on one input (R141) -/

/-- An identity section with zero state. -/
structure Biquad.IsIdentity (b : Biquad) : Prop where
  co : b.co.IsIdentity
  z1 : b.z1 = Lit.zero
  z2 : b.z2 = Lit.zero

/-- A finite candidate state comes from finite feed-forward products. -/
theorem bqProcess_finite_products {b : Biquad} {x : Word} (h1 : F64.isFinite (bqProcess b x).2.1 = true)
    (h2 : F64.isFinite (bqProcess b x).2.2 = true) : F64.isFinite (F64.mul b.co.b1 (ftz x)) = true ∧
      F64.isFinite (F64.mul b.co.b2 (ftz x)) = true :=
  ⟨(F64.finite_of_sub (F64.finite_of_add (finite_of_ftz h1)).1).1, (F64.finite_of_sub (finite_of_ftz h2)).1⟩

namespace Biquad.IsIdentity

theorem with_zero_state_eq {b : Biquad} (h : b.IsIdentity) : { b with z1 := Lit.zero, z2 := Lit.zero } = b := by
  obtain ⟨-, hz1, hz2⟩ := h
  cases b
  cases hz1
  cases hz2
  rfl

section

variable {b : Biquad} {x : Word} (h : b.IsIdentity) (hx : F64.isFinite x = true)
include h hx

/-- A section's answer to a normal input, where its products do not overflow: the output is the input, and in each state
register the feedback cancels the feed-forward. -/
theorem bqProcess_normal (hnorm : F64.le Config.ftzMin (F64.abs x) = true)
    (h1 : F64.isFinite (F64.mul b.co.b1 x) = true) (h2 : F64.isFinite (F64.mul b.co.b2 x) = true) :
    bqProcess b x = (x, Lit.zero, Lit.zero) := by
  obtain ⟨hb0, hb1, hb2⟩ := h.co
  have hu : ftz x = x := ftz_of_ge hnorm
  have hy : F64.add (F64.mul Lit.one x) Lit.zero = x := by
    rw [F64.one_mul hx, F64.add_eq_left hx (F64.isZero_eq_false_of_ge hnorm) F64.isZero_zero]
  have hn1 : F64.add (F64.sub (F64.mul b.co.b1 x) (F64.mul b.co.a1 x)) Lit.zero = Lit.zero :=
    F64.add_zero_of_isZero (F64.isZero_sub_of_eq h1 (F64.eq_mul hb1 h1))
  have hn2 : F64.sub (F64.mul b.co.b2 x) (F64.mul b.co.a2 x) = Lit.zero := by
    rw [← hb2]
    exact F64.sub_self h2
  simp only [bqProcess, h.z1, h.z2, hb0, hu, hy, hn1, hn2, ftz_of_isZero F64.isZero_zero]

/-- A smaller input is read as a zero, and every sum is one of zeros. -/
theorem bqProcess_small (hsmall : F64.lt (F64.abs x) Config.ftzMin = true) (hfin : b.co.finite = true) :
    F64.isZero (bqProcess b x).1 = true ∧ F64.isZero (bqProcess b x).2.1 = true ∧
    F64.isZero (bqProcess b x).2.2 = true := by
  obtain ⟨fb0, fb1, fb2, fa1, fa2⟩ := Coeffs.finite_iff.mp hfin
  have hftz {w : Word} (hw : F64.isZero w = true) : F64.isZero (ftz w) = true := (ftz_of_isZero hw).symm ▸ hw
  have hu := isZero_ftz_of_lt hx hsmall
  have hy : F64.isZero (F64.add (F64.mul b.co.b0 (ftz x)) Lit.zero) = true :=
    F64.isZero_add (F64.isZero_mul fb0 hu) F64.isZero_zero
  simp only [bqProcess, h.z1, h.z2]
  exact ⟨hy,
    hftz (F64.isZero_add (F64.isZero_sub (F64.isZero_mul fb1 hu) (F64.isZero_mul fa1 hy)) F64.isZero_zero),
    hftz (F64.isZero_sub (F64.isZero_mul fb2 hu) (F64.isZero_mul fa2 hy))⟩

/-! ### The section as a bank (R152) -/

/-- Where a product overflows the guard returns the input, and elsewhere the section does. -/
theorem bankProcess_normal (hnorm : F64.le Config.ftzMin (F64.abs x) = true) : bankProcess [b] x = (x, [b]) := by
  unfold bankProcess
  split_ifs with hok
  · simp only [bankRun, Bool.and_eq_true] at hok
    obtain ⟨⟨⟨-, hn1⟩, hn2⟩, -⟩ := hok
    obtain ⟨h1, h2⟩ := bqProcess_finite_products hn1 hn2
    rw [ftz_of_ge hnorm] at h1 h2
    simp only [bankRun, h.bqProcess_normal hx hnorm h1 h2, h.with_zero_state_eq]
  · rfl

end

end Biquad.IsIdentity

/-- Settles O51: designs of 0 dB are identities, and an identity section answers as `Biquad.IsIdentity` says. -/
theorem identitySection : Obligations.IdentitySection := by
  refine ⟨fun L d fs c hgdb hkind hc => bqDesign_isIdentity hgdb hkind hc, fun b x hb0 hb1 hb2 hz1 hz2 hx => ?_⟩
  have hb : b.IsIdentity := ⟨⟨hb0, hb1, hb2⟩, hz1, hz2⟩
  exact ⟨fun hnorm => ⟨hb.bankProcess_normal hx hnorm, hb.bqProcess_normal hx hnorm⟩, hb.bqProcess_small hx⟩

end Sys2Proof.Machine

/-! SUPPORT. The dispersive bank against its chain of stage inputs (spec/41_allpass.md R186): the run before the guard
commits each stage's candidate state on the chain, and passes when every output and every candidate is finite. -/

namespace Sys2Proof.Machine

/-- A stage with the candidate state of the input `v` written (R182). -/
def DispStage.committed (d : DispStage) (v : Word) : DispStage := { d with z := (apProcess d.c d.z v).2 }

/-- The dispersive bank with every stage's candidate state written, each on its own input. -/
def dispCommitted (bank : List DispStage) (x : Word) : List DispStage :=
  List.zipWith DispStage.committed bank (dispChain bank x)

/-- What the guard of the dispersive bank asks for: every stage's output and every candidate state is finite (R186). -/
def dispPasses (bank : List DispStage) (x : Word) : Bool :=
  (dispChain bank x).tail.all F64.isFinite && (dispCommitted bank x).all (fun d => F64.isFinite d.z)

/-- The chain begins with the bank's input. -/
theorem dispChain_eq_cons (bank : List DispStage) (x : Word) : dispChain bank x = x :: (dispChain bank x).tail := by
  cases bank <;> rfl

theorem dispCommitted_cons (d : DispStage) (ds : List DispStage) (x : Word) :
    dispCommitted (d :: ds) x = d.committed x :: dispCommitted ds (apProcess d.c d.z x).1 := rfl

/-- The output of the first stage comes before the outputs of the others. -/
theorem dispPasses_cons (d : DispStage) (ds : List DispStage) (x : Word) :
    dispPasses (d :: ds) x = (F64.isFinite (apProcess d.c d.z x).1 && F64.isFinite (apProcess d.c d.z x).2 &&
      dispPasses ds (apProcess d.c d.z x).1) := by
  have hchain := congrArg (List.all · F64.isFinite) (dispChain_eq_cons ds (apProcess d.c d.z x).1)
  simp only [List.all_cons] at hchain
  simp only [dispPasses, dispCommitted_cons, dispChain, List.tail_cons, List.all_cons, DispStage.committed, hchain]
  ac_rfl

/-- The last value on a chain of at least one stage is the last value on the chain of the stages behind the first. -/
theorem dispChain_cons_getLastD (d : DispStage) (ds : List DispStage) (x : Word) :
    (dispChain (d :: ds) x).getLastD x =
      (dispChain ds (apProcess d.c d.z x).1).getLastD (apProcess d.c d.z x).1 := by
  rw [dispChain, dispChain_eq_cons ds]
  simp only [List.getLastD_cons]

/-- The run before the guard: the end of the chain, the stages committed on it, and the guard's verdict. -/
theorem dispRun_eq (bank : List DispStage) (x : Word) :
    dispRun bank x = ((dispChain bank x).getLastD x, dispCommitted bank x, dispPasses bank x) := by
  induction bank generalizing x with
  | nil => rfl
  | cons d ds ih =>
    simp only [dispRun, ih, dispChain_cons_getLastD, dispCommitted_cons, dispPasses_cons, DispStage.committed]

/-- Settles O50: the guard decides between the run, which is the chain's, and the state as it was. -/
theorem dispersiveGuard : Obligations.DispersiveGuard := by
  intro s x
  change dispProcess s x =
    if dispPasses s.disp x then ((dispChain s.disp x).getLastD x, { s with disp := dispCommitted s.disp x }) else (x, s)
  rw [dispProcess, dispRun_eq]

end Sys2Proof.Machine

/-! SUPPORT. RESET (spec/47_commands.md R343): what the RESET of each unit (spec/10_state.md R46 c) leaves in its state
registers, that it is idempotent, and what `zeroSignal` keeps. -/

namespace Sys2Proof.Machine

/-! ### The units (R142, R153, R183, R269) -/

theorem signal_of_mem_bankReset {bank : List Biquad} {b : Biquad} (h : b ∈ bankReset bank) :
    b.z1 = Lit.zero ∧ b.z2 = Lit.zero := by
  obtain ⟨b₀, -, rfl⟩ := List.mem_map.mp h
  exact ⟨rfl, rfl⟩

theorem signal_of_mem_map_apReset {bank : List DispStage} {d : DispStage} (h : d ∈ bank.map apReset) :
    d.z = Lit.zero := by
  obtain ⟨d₀, -, rfl⟩ := List.mem_map.mp h
  rfl

@[simp] theorem bankReset_bankReset (bank : List Biquad) : bankReset (bankReset bank) = bankReset bank :=
  List.map_map.trans rfl

@[simp] theorem map_apReset_map_apReset (bank : List DispStage) :
    (bank.map apReset).map apReset = bank.map apReset :=
  List.map_map.trans rfl

/-- The ring of which no byte is listed is all +0.0 (R91, R269). -/
theorem ringRead_nil (i : Fin 16) : ringRead [] i = Lit.zero := rfl

/-! ### The whole signal state (R343) -/

theorem zeroSignal_sameSettings (s : State) : SameSettings s (zeroSignal s) := ⟨rfl, rfl, rfl, rfl, rfl⟩

theorem zeroSignal_sameCoeffs (s : State) : SameCoeffs s (zeroSignal s) where
  rate := (Effect.reset s).sameRate.resolve_right (by simp)
  shape := (Effect.reset s).sameShape.resolve_right (by simp)
  tuning := rfl

theorem zeroSignal_zeroSignal (s : State) : zeroSignal (zeroSignal s) = zeroSignal s := by
  simp only [zeroSignal, bankReset_bankReset, map_apReset_map_apReset]

theorem zeroSignal_fadeDone (s : State) : (zeroSignal s).fadeDone = false :=
  (by decide : F64.eq Lit.zero Lit.one = false)

/-! ### The command -/

theorem SameSettings.complete {s t : State} (h : SameSettings s t) : SameSettings s (complete t) := { h with }

theorem SameHost.complete {s t : State} (h : SameHost s t) : SameHost s (complete t) := { h with }

theorem SameCoeffs.complete {s t : State} (h : SameCoeffs s t) : SameCoeffs s (complete t) :=
  ⟨{ h.rate with }, { h.shape with }, h.tuning⟩

theorem exec_reset {s : State} (hf : s.fault = none) : exec .reset s = .next (complete (zeroSignal s)) :=
  congrArg Host.Outcome.next (framed_ok hf rfl)

theorem exec_reset_again {s : State} (hf : s.fault = none) :
    exec .reset (complete (zeroSignal s)) = .next (complete (zeroSignal s)) := by
  have hsame : zeroSignal (complete (zeroSignal s)) = complete (zeroSignal s) :=
    congrArg complete (zeroSignal_zeroSignal s)
  rw [exec_reset (s := complete (zeroSignal s)) hf, hsame]
  rfl

/-- Settles O17: RESET leaves `zeroSignal` with ACK OK, and each clause is a fact about `zeroSignal`. -/
theorem resetZeroesSignalState : Obligations.ResetZeroesSignalState := by
  refine ⟨rfl, fun s hf => ⟨complete (zeroSignal s), exec_reset hf, ?_⟩⟩
  refine ⟨?banks, fun _ => signal_of_mem_map_apReset, rfl, rfl, rfl, rfl, ringRead_nil, fun _ => rfl, rfl, rfl, rfl,
    zeroSignal_fadeDone s, rfl, hf, rfl, rfl, (Effect.reset s).sameHost.complete,
    (zeroSignal_sameSettings s).complete, (zeroSignal_sameCoeffs s).complete, exec_reset_again hf⟩
  rintro b (h | h | h | h) <;> exact signal_of_mem_bankReset h

end Sys2Proof.Machine

/-! SUPPORT. The sign in binary64 arithmetic (spec/00_scope.md R12): rounding to nearest, ties to even, treats a number
and its negative alike, so a product and a sum follow the sign of their operands. -/

namespace Sys2Proof.Machine

/-! ### The negative of a word -/

@[simp] theorem F64.abs_neg (w : Word) : F64.abs (F64.neg w) = F64.abs w := by simp [F64.abs]

@[simp] theorem F64.isInf_neg (w : Word) : F64.isInf (F64.neg w) = F64.isInf w := by simp [F64.isInf]

@[simp] theorem F64.isNaN_abs (w : Word) : F64.isNaN (F64.abs w) = F64.isNaN w := by simp [F64.isNaN]

theorem F64.neg_pack (b : Bool) {p : Nat} (hp : p < 2 ^ 63) : F64.neg (F64.pack b p) = F64.pack (!b) p := by
  rw [F64.neg, F64.isNeg_pack b hp, F64.pat_pack b hp]

theorem F64.isNaN_nan : F64.isNaN F64.nan = true := by decide

/-- An infinity, too, equals itself; a NaN does not. -/
theorem F64.eq_self_of_number {w : Word} (h : F64.isNaN w = false) : F64.eq w w = true :=
  F64.eq_iff.mpr ⟨h, h, rfl⟩

/-! ### Products -/

/-- A product that is a number has the sign of its second factor. -/
theorem F64.mul_neg {a b : Word} (h : F64.isNaN (F64.mul a b) = false) :
    F64.mul a (F64.neg b) = F64.neg (F64.mul a b) := by
  have hsign : (F64.isNeg a != !F64.isNeg b) = !(F64.isNeg a != F64.isNeg b) := by simp
  simp only [F64.mul, F64.isNaN_neg, F64.isInf_neg, F64.isZero_neg, F64.isNeg_neg, F64.mag_neg, hsign] at h ⊢
  split_ifs at h ⊢
  · simp [F64.isNaN_nan] at h
  · simp [F64.isNaN_nan] at h
  · exact (F64.neg_pack _ (by decide)).symm
  · exact (F64.neg_pack _ (F64.roundMag_lt _ _ _)).symm

theorem F64.neg_mul_neg (a b : Word) : F64.mul (F64.neg a) (F64.neg b) = F64.mul a b := by
  rw [F64.neg_mul, F64.neg_neg]

/-- A product that is a number has factors that are numbers. -/
theorem F64.number_of_mul {a b : Word} (h : F64.isNaN (F64.mul a b) = false) :
    F64.isNaN a = false ∧ F64.isNaN b = false := by
  unfold F64.mul at h
  split_ifs at h
  · simp [F64.isNaN_nan] at h
  all_goals simp_all

/-- An infinity times a zero is a NaN. -/
theorem F64.finite_of_mul_isZero {a z : Word} (hz : F64.isZero z = true) (h : F64.isNaN (F64.mul a z) = false) :
    F64.isFinite a = true := by
  have hnum := (F64.number_of_mul h).1
  cases hinf : F64.isInf a with
  | true => simp [F64.mul, hnum, F64.isNaN_of_isFinite (F64.isFinite_of_isZero hz), hinf, hz, F64.isNaN_nan] at h
  | false => simp [F64.isFinite_eq, hnum, hinf]

/-! ### Sums -/

/-- A sum that is a number has operands that are numbers. -/
theorem F64.number_of_add {a b : Word} (h : F64.isNaN (F64.add a b) = false) :
    F64.isNaN a = false ∧ F64.isNaN b = false := by
  unfold F64.add at h
  split_ifs at h
  · simp [F64.isNaN_nan] at h
  all_goals simp_all

/-- An infinite sum is one of its operands, so the sum of the negatives is that operand's negative. -/
theorem F64.add_neg_neg_of_isInf {a b : Word} (hinf : F64.isInf a = true ∨ F64.isInf b = true)
    (h : F64.isNaN (F64.add a b) = false) : F64.add (F64.neg a) (F64.neg b) = F64.neg (F64.add a b) := by
  obtain ⟨ha, hb⟩ := F64.number_of_add h
  cases hai : F64.isInf a with
  | false =>
    have hbi : F64.isInf b = true := by simpa [hai] using hinf
    simp [F64.add, ha, hb, hai, hbi]
  | true =>
    cases hopp : F64.isInf b && F64.isNeg a != F64.isNeg b with
    | true => simp [F64.add, ha, hb, hai, hopp, F64.isNaN_nan] at h
    | false => simp [F64.add, ha, hb, hai, hopp]

theorem F64.eq_add_neg_neg_of_finite {a b : Word} (ha : F64.isFinite a = true) (hb : F64.isFinite b = true) :
    F64.eq (F64.add (F64.neg a) (F64.neg b)) (F64.neg (F64.add a b)) = true := by
  have hsum : F64.value (F64.neg a) + F64.value (F64.neg b) = -(F64.value a + F64.value b) := by
    rw [F64.value_neg, F64.value_neg]
    omega
  rw [F64.add_of_finite ha hb, F64.add_of_finite (by simpa using ha) (by simpa using hb), hsum, Int.natAbs_neg]
  by_cases hz : F64.value a + F64.value b = 0
  · rw [if_pos hz, if_pos (by omega)]
    exact F64.eq_of_isZero (F64.isZero_pack_zero _) (by simpa using F64.isZero_pack_zero _)
  · have hsign : decide (-(F64.value a + F64.value b) < 0) = !decide (F64.value a + F64.value b < 0) := by
      rw [← decide_not, decide_eq_decide]
      omega
    rw [if_neg hz, if_neg (by omega), hsign, ← F64.neg_pack _ (F64.roundMag_lt _ _ _)]
    exact F64.eq_self_of_number (by simpa using F64.isNaN_pack_of_le _ (F64.roundMag_le _ _ _))

/-- The sum of the negatives is the negative of the sum, but for a zero's sign. -/
theorem F64.eq_add_neg_neg {a b : Word} (h : F64.isNaN (F64.add a b) = false) :
    F64.eq (F64.add (F64.neg a) (F64.neg b)) (F64.neg (F64.add a b)) = true := by
  obtain ⟨ha, hb⟩ := F64.number_of_add h
  by_cases hinf : F64.isInf a = true ∨ F64.isInf b = true
  · rw [F64.add_neg_neg_of_isInf hinf h]
    exact F64.eq_self_of_number (by simpa using h)
  · obtain ⟨hai, hbi⟩ := not_or.mp hinf
    exact F64.eq_add_neg_neg_of_finite (by simp [F64.isFinite_eq, ha, hai]) (by simp [F64.isFinite_eq, hb, hbi])

/-- A finite number plus a zero of either sign is finite. -/
theorem F64.isFinite_add_isZero {x z : Word} (hx : F64.isFinite x = true) (hz : F64.isZero z = true) :
    F64.isFinite (F64.add x z) = true := by
  cases hxz : F64.isZero x with
  | true => exact F64.isFinite_of_isZero (F64.isZero_add hxz hz)
  | false => rwa [F64.add_eq_left hx hxz hz]

/-- Adding a zero commutes with the negative, but for a zero's sign. -/
theorem F64.eq_neg_add_isZero {x z : Word} (hx : F64.isFinite x = true) (hz : F64.isZero z = true) :
    F64.eq (F64.add (F64.neg x) z) (F64.neg (F64.add x z)) = true := by
  cases hxz : F64.isZero x with
  | true =>
    exact F64.eq_of_isZero (F64.isZero_add (by simpa using hxz) hz) (by simpa using F64.isZero_add hxz hz)
  | false =>
    rw [F64.add_eq_left hx hxz hz, F64.add_eq_left (by simpa using hx) (by simpa using hxz) hz]
    exact F64.eq_self (by simpa using hx)

/-! ### Comparisons -/

theorem F64.lt_eq_false_of_le {a b : Word} (h : F64.le a b = true) : F64.lt b a = false := by
  obtain ⟨-, -, hle⟩ := F64.le_iff.mp h
  simp [F64.lt, hle]

end Sys2Proof.Machine

/-! SUPPORT. The saturator (spec/43_envelope_saturator.md R224 to R231): its coefficient where the shaping is off, and
the cubic of the biased sample, which is odd. -/

namespace Sys2Proof.Machine

/-! ### The coefficient (R225 to R227) -/

theorem shapeLow_off (L : NumLibChoice) {t : Tuning} {e : Word} (k : Word)
    (h : F64.le t.lowThresh Lit.zero = true ∨ F64.le t.lowThresh e = true) : shapeLow L t e k = k := by
  rcases h with h | h <;> simp [shapeLow, F64.lt_eq_false_of_le h]

theorem shapeKnee_off {t : Tuning} {e : Word} (k : Word)
    (h : F64.le t.kneeThresh Lit.zero = true ∨ F64.le e t.kneeThresh = true) : shapeKnee t e k = k := by
  rcases h with h | h <;> simp [shapeKnee, F64.lt_eq_false_of_le h]

/-- Settles O53: each shaping is off by its own threshold, and the coefficient is the two shapings of the base one. -/
theorem saturatorShapingOff : Obligations.SaturatorShapingOff := by
  refine fun L t e k => ⟨shapeLow_off L k, shapeKnee_off k, ?_⟩
  rintro env rfl hlow hknee
  rw [satCoeff, shapeLow_off L _ hlow, shapeKnee_off _ hknee]

/-! ### The cubic (R224, R228) -/

/-- The output of the saturator at the coefficient `k` and the biased sample `b`: `b − k·b³`. -/
def cubicClip (k b : Word) : Word := F64.sub b (F64.mul k (F64.mul (F64.mul b b) b))

theorem satStep_fst (P : Params) (t : Tuning) (env x : Word) :
    (satStep P t env x).1 = cubicClip (satCoeff P.numlib t (satStep P t env x).2) (F64.add x t.dcBias) := by
  simp only [satStep, cubicClip]

theorem satStep_neg_snd (P : Params) (t : Tuning) (env x : Word) :
    (satStep P t env (F64.neg x)).2 = (satStep P t env x).2 := by
  simp only [satStep, F64.abs_neg]

/-- An output that is a number comes from a product that is one. -/
theorem number_of_cubicClip {k b : Word} (h : F64.isNaN (cubicClip k b) = false) :
    F64.isNaN (F64.mul k (F64.mul (F64.mul b b) b)) = false := by
  simpa using (F64.number_of_add h).2

theorem isZero_cube {b : Word} (hb : F64.isZero b = true) : F64.isZero (F64.mul (F64.mul b b) b) = true :=
  have hfin := F64.isFinite_of_isZero hb
  F64.isZero_mul (F64.isFinite_of_isZero (F64.isZero_mul hfin hb)) hb

theorem isZero_cubicClip {k b : Word} (hk : F64.isFinite k = true) (hb : F64.isZero b = true) :
    F64.isZero (cubicClip k b) = true :=
  F64.isZero_sub hb (F64.isZero_mul hk (isZero_cube hb))

theorem cubicClip_neg {k b : Word} (h : F64.isNaN (cubicClip k b) = false) :
    F64.eq (cubicClip k (F64.neg b)) (F64.neg (cubicClip k b)) = true := by
  have hprod := number_of_cubicClip h
  have hcube := (F64.number_of_mul hprod).2
  rw [cubicClip, F64.neg_mul_neg, F64.mul_neg hcube, F64.mul_neg hprod]
  exact F64.eq_add_neg_neg h

/-- The cubic is odd also where the biased samples are opposite but for a zero's sign: with a zero it is a zero. -/
theorem cubicClip_odd {k b c : Word} (hc : F64.isFinite c = true) (hcb : F64.eq c (F64.neg b) = true)
    (h : F64.isNaN (cubicClip k b) = false) : F64.eq (cubicClip k c) (F64.neg (cubicClip k b)) = true := by
  rcases F64.eq_cases hc hcb with rfl | ⟨hcz, hnz⟩
  · exact cubicClip_neg h
  · have hbz : F64.isZero b = true := by simpa using hnz
    have hk := F64.finite_of_mul_isZero (isZero_cube hbz) (number_of_cubicClip h)
    exact F64.eq_of_isZero (isZero_cubicClip hk hcz) (by simpa using isZero_cubicClip hk hbz)

/-- Settles O52: the envelope reads the magnitude, so both samples meet one coefficient, and the cubic is odd. -/
theorem saturatorOdd : Obligations.SaturatorOdd := by
  intro P t env x hbias hx
  refine ⟨satStep_neg_snd P t env x, fun hnum => ?_⟩
  rw [satStep_fst, satStep_neg_snd, satStep_fst P t env x]
  exact cubicClip_odd (F64.isFinite_add_isZero (by simpa using hx) hbias) (F64.eq_neg_add_isZero hx hbias) hnum

end Sys2Proof.Machine

/-! SUPPORT. The tanh limiter (spec/43_envelope_saturator.md R233): `tanh` of every library is at most 1 in magnitude,
and the bound goes through the operations of the knee because the rounding is monotone. -/

namespace Sys2Proof.Machine

/-! ### Bounds on a magnitude -/

/-- A bound on a magnitude, in units. -/
theorem F64.abs_le_iff {w c : Word} (hc : F64.isFinite c = true) (hpos : F64.isNeg c = false) :
    F64.le (F64.abs w) c = true ↔ F64.isNaN w = false ∧ F64.mag w ≤ F64.mag c := by
  rw [F64.le_iff, F64.isNaN_abs, F64.value_of_not_neg (F64.isNeg_abs w), F64.value_of_not_neg hpos, F64.mag_abs,
    Int.ofNat_le]
  simp [F64.isNaN_of_isFinite hc]

/-- A number within a finite bound is finite. -/
theorem F64.isFinite_of_abs_le {w c : Word} (hc : F64.isFinite c = true) (hpos : F64.isNeg c = false)
    (h : F64.le (F64.abs w) c = true) : F64.isFinite w = true := by
  obtain ⟨-, hle⟩ := (F64.abs_le_iff hc hpos).mp h
  by_contra hinf
  exact absurd (F64.mag_lt_of_isFinite hc (Bool.eq_false_iff.mpr hinf)) (Nat.not_lt.mpr hle)

theorem F64.abs_le_trans {w c d : Word} (hc : F64.isFinite c = true) (hcpos : F64.isNeg c = false)
    (hd : F64.isFinite d = true) (hdpos : F64.isNeg d = false) (hcd : F64.mag c ≤ F64.mag d)
    (h : F64.le (F64.abs w) c = true) : F64.le (F64.abs w) d = true := by
  obtain ⟨hnan, hle⟩ := (F64.abs_le_iff hc hcpos).mp h
  exact (F64.abs_le_iff hd hdpos).mpr ⟨hnan, hle.trans hcd⟩

/-- Patterns bound magnitudes. -/
theorem F64.abs_pack_le (b : Bool) {p : Nat} {c : Word} (hc : F64.isFinite c = true) (hpos : F64.isNeg c = false)
    (h : p ≤ F64.pat c) : F64.le (F64.abs (F64.pack b p)) c = true := by
  have hlt := F64.pat_lt c
  have hfin : p < F64.infPat := Nat.lt_of_le_of_lt h (F64.isFinite_iff.mp hc)
  refine (F64.abs_le_iff hc hpos).mpr ⟨F64.isNaN_pack_of_le b (Nat.le_of_lt hfin), ?_⟩
  rw [F64.mag_eq_pack, F64.mag_eq_pack c, F64.pat_pack b (by omega)]
  exact F64.mag_mono hlt h

/-- A bound on the exact value, by a number, bounds what it rounds to. -/
theorem F64.abs_round_le (b : Bool) {n j : Nat} {c : Word} (hj : j ≤ 2 ^ 15) (hc : F64.isFinite c = true)
    (hpos : F64.isNeg c = false) (h : n ≤ F64.mag c * 2 ^ j) :
    F64.le (F64.abs (F64.pack b (F64.roundMag n j false))) c = true := by
  refine F64.abs_pack_le b hc hpos ?_
  rw [← F64.roundMag_mag hj hc]
  exact F64.roundMag_mono j (F64.mag_mul_lt hj hc) h

theorem F64.abs_mul_le {a b c : Word} (ha : F64.isFinite a = true) (hb : F64.isFinite b = true)
    (hc : F64.isFinite c = true) (hpos : F64.isNeg c = false) (h : F64.mag a * F64.mag b ≤ F64.mag c * 2 ^ 1074) :
    F64.le (F64.abs (F64.mul a b)) c = true := by
  rw [F64.mul_of_finite ha hb]
  exact F64.abs_round_le _ (by decide) hc hpos h

theorem F64.abs_add_le {a b c : Word} (ha : F64.isFinite a = true) (hb : F64.isFinite b = true)
    (hc : F64.isFinite c = true) (hpos : F64.isNeg c = false) (h : F64.mag a + F64.mag b ≤ F64.mag c) :
    F64.le (F64.abs (F64.add a b)) c = true := by
  have hsum : (F64.value a + F64.value b).natAbs ≤ F64.mag c * 2 ^ 0 := by
    have htri := Int.natAbs_add_le (F64.value a) (F64.value b)
    rw [F64.natAbs_value, F64.natAbs_value] at htri
    omega
  rw [F64.add_of_finite ha hb]
  split
  · exact F64.abs_pack_le _ hc hpos (Nat.zero_le _)
  · exact F64.abs_round_le _ (by decide) hc hpos hsum

/-! ### Results that are numbers -/

theorem F64.isNaN_add_of_finite {a b : Word} (ha : F64.isFinite a = true) (hb : F64.isFinite b = true) :
    F64.isNaN (F64.add a b) = false := by
  rw [F64.add_of_finite ha hb]
  split
  · exact F64.isNaN_pack_of_le _ (Nat.zero_le _)
  · exact F64.isNaN_pack_of_le _ (F64.roundMag_le _ _ _)

/-- A number divided by a finite number that is not a zero. -/
theorem F64.isNaN_div_of_number {a b : Word} (ha : F64.isNaN a = false) (hb : F64.isFinite b = true)
    (hz : F64.isZero b = false) : F64.isNaN (F64.div a b) = false := by
  cases hinf : F64.isInf a with
  | true =>
    simp only [F64.div, ha, hinf, F64.isNaN_of_isFinite hb, F64.isInf_of_isFinite hb, Bool.or_self,
      Bool.false_eq_true, if_false, if_true]
    exact F64.isNaN_pack_of_le _ (Nat.le_refl _)
  | false =>
    rw [F64.div_of_finite (by simp [F64.isFinite_eq, ha, hinf]) hb hz]
    exact F64.isNaN_pack_of_le _ (F64.roundMag_le _ _ _)

/-! ### The library's `tanh` (R13) -/

theorem crTanh_le {x : Word} (hx : F64.isNaN x = false) : F64.le (F64.abs (crTanh x)) Lit.one = true := by
  have hone : F64.isNeg Lit.one = false := by decide
  unfold crTanh
  rw [if_neg (by simp [hx])]
  split_ifs with hz
  · exact (F64.abs_le_iff F64.isFinite_one hone).mpr ⟨hx, by simp [F64.mag_eq_zero_iff.mpr hz]⟩
  · exact F64.abs_pack_le _ F64.isFinite_one hone (Nat.le_refl _)
  · exact F64.abs_pack_le _ F64.isFinite_one hone (Nat.min_le_left _ _)

/-- `tanh` of a number is at most 1 in magnitude, whatever the library. -/
theorem NumLibChoice.tanh_le (L : NumLibChoice) {x : Word} (hx : F64.isNaN x = false) :
    F64.le (F64.abs (NumLibChoice.tanh L x)) Lit.one = true := by
  cases L with
  | correctlyRounded => exact crTanh_le hx
  | platform id => exact NumLibChoice.tanh_platform_le id x

/-! ### The sign of R14 -/

theorem sgn_le (v : Word) : F64.le (F64.abs (sgn v)) Lit.one = true := by
  unfold sgn
  split_ifs <;> decide +kernel

/-- Multiplying by a sign keeps a bound. -/
theorem abs_sgn_mul_le (v : Word) {y c : Word} (hc : F64.isFinite c = true) (hpos : F64.isNeg c = false)
    (hy : F64.le (F64.abs y) c = true) : F64.le (F64.abs (F64.mul (sgn v) y)) c = true := by
  have hone : F64.isNeg Lit.one = false := by decide
  obtain ⟨-, hsgn⟩ := (F64.abs_le_iff F64.isFinite_one hone).mp (sgn_le v)
  obtain ⟨-, hmag⟩ := (F64.abs_le_iff hc hpos).mp hy
  refine F64.abs_mul_le (F64.isFinite_of_abs_le F64.isFinite_one hone (sgn_le v))
    (F64.isFinite_of_abs_le hc hpos hy) hc hpos ?_
  rw [F64.mag_one] at hsgn
  rw [Nat.mul_comm]
  exact Nat.mul_le_mul hmag hsgn

/-! ### The limiter -/

/-- The magnitude the limiter gives above its threshold, `u` being the excess over the threshold in widths. -/
def limiterKnee (L : NumLibChoice) (u : Word) : Word :=
  F64.add Config.hlimT (F64.mul Config.hlimW (NumLibChoice.tanh L u))

/-- The excess of a magnitude over the limiter's threshold, in widths. -/
def limiterExcess (h : Word) : Word := F64.div (F64.sub (F64.abs h) Config.hlimT) Config.hlimW

theorem hlim_of_gt (L : NumLibChoice) {h : Word} (hinf : F64.isInf h = false)
    (hgt : F64.lt Config.hlimT (F64.abs h) = true) : hlim L h = F64.mul (sgn h) (limiterKnee L (limiterExcess h)) := by
  rw [hlim, if_neg (by simp [hinf]), if_pos hgt]
  rfl

theorem hlim_of_not_gt (L : NumLibChoice) {h : Word} (hinf : F64.isInf h = false)
    (hgt : F64.lt Config.hlimT (F64.abs h) = false) : hlim L h = h := by simp [hlim, hinf, hgt]

theorem hlim_pack_infPat (L : NumLibChoice) (b : Bool) :
    hlim L (F64.pack b F64.infPat) = F64.pack b (F64.pat Lit.two) := by
  have hinf : F64.isInf (F64.pack b F64.infPat) = true := by cases b <;> decide
  rw [hlim, if_pos hinf]
  cases b <;> decide +kernel

/-- The threshold and a width add up to 2.0. -/
theorem limiterKnee_le (L : NumLibChoice) {u : Word} (hu : F64.isNaN u = false) :
    F64.le (F64.abs (limiterKnee L u)) Lit.two = true := by
  have hone : F64.isNeg Lit.one = false := by decide
  have hT : F64.isFinite Config.hlimT = true := by decide
  have hW : F64.isFinite Config.hlimW = true := by decide
  have hWpos : F64.isNeg Config.hlimW = false := by decide
  have htanh := NumLibChoice.tanh_le L hu
  obtain ⟨-, htanhMag⟩ := (F64.abs_le_iff F64.isFinite_one hone).mp htanh
  rw [F64.mag_one] at htanhMag
  have hprod : F64.le (F64.abs (F64.mul Config.hlimW (NumLibChoice.tanh L u))) Config.hlimW = true :=
    F64.abs_mul_le hW (F64.isFinite_of_abs_le F64.isFinite_one hone htanh) hW hWpos
      (Nat.mul_le_mul_left _ htanhMag)
  obtain ⟨-, hprodMag⟩ := (F64.abs_le_iff hW hWpos).mp hprod
  have htwo : F64.mag Config.hlimT + F64.mag Config.hlimW = F64.mag Lit.two := by decide +kernel
  exact F64.abs_add_le hT (F64.isFinite_of_abs_le hW hWpos hprod) (by decide) (by decide)
    ((Nat.add_le_add_left hprodMag _).trans_eq htwo)

theorem isNaN_limiterExcess {h : Word} (hfin : F64.isFinite h = true) : F64.isNaN (limiterExcess h) = false :=
  F64.isNaN_div_of_number (F64.isNaN_add_of_finite (by simpa using hfin) (by decide)) (by decide) (by decide)

theorem hlim_of_isNaN (L : NumLibChoice) {h : Word} (hnan : F64.isNaN h = true) : hlim L h = h := by
  have hpat : F64.infPat < F64.pat h := by simpa [F64.isNaN] using hnan
  exact hlim_of_not_gt L (decide_eq_false (Nat.ne_of_gt hpat)) (by simp [F64.lt, hnan])

/-- Up to the threshold a value passes. -/
theorem hlim_of_le (L : NumLibChoice) {h : Word} (hle : F64.le (F64.abs h) Config.hlimT = true) : hlim L h = h :=
  hlim_of_not_gt L (F64.isInf_of_isFinite (F64.isFinite_of_abs_le (by decide) (by decide) hle))
    (F64.lt_eq_false_of_le hle)

theorem hlim_le (L : NumLibChoice) {h : Word} (hnum : F64.isNaN h = false) :
    F64.le (F64.abs (hlim L h)) Lit.two = true := by
  cases hinf : F64.isInf h with
  | true =>
    have hpat : F64.pat h = F64.infPat := by simpa [F64.isInf] using hinf
    rw [← F64.pack_self h, hpat, hlim_pack_infPat]
    exact F64.abs_pack_le _ (by decide) (by decide) (Nat.le_refl _)
  | false =>
    cases hgt : F64.lt Config.hlimT (F64.abs h) with
    | true =>
      have hfin : F64.isFinite h = true := by simp [F64.isFinite_eq, hnum, hinf]
      rw [hlim_of_gt L hinf hgt]
      exact abs_sgn_mul_le h (by decide) (by decide) (limiterKnee_le L (isNaN_limiterExcess hfin))
    | false =>
      have hle : F64.le (F64.abs h) Config.hlimT = true := by
        have hT : F64.isNaN Config.hlimT = false := by decide
        simpa [F64.le, F64.lt, hnum, hT] using hgt
      rw [hlim_of_le L hle]
      exact F64.abs_le_trans (by decide) (by decide) (by decide) (by decide) (by decide +kernel) hle

/-- Settles O54, clause by clause. -/
theorem limiterBounds : Obligations.LimiterBounds :=
  ⟨fun L _ => hlim_of_le L, fun L _ => hlim_of_isNaN L, fun L _ => hlim_le L,
    fun L => ⟨hlim_pack_infPat L false, hlim_pack_infPat L true⟩⟩

end Sys2Proof.Machine

/-! SUPPORT. The azimuth delay (spec/44_thiran_delay.md): one step of it (R264) and PROCESS2 (R345), whose frame is the
pipeline's, and the samples the ring holds in the first 16 steps from reset, among them a unit impulse (R271). -/

namespace Sys2Proof.Machine

/-! ### One step (R263, R264) -/

theorem azFractional_bypass {s : State} (h : F64.lt s.azFrac Config.thiranMinFrac = true) (r : Word) :
    azFractional s r = (r, s.azZ) := if_pos h

/-- From the least fraction on, the allpass decides, and a result that is not finite is not used (R263). -/
theorem azFractional_allpass {s : State} (h : F64.lt s.azFrac Config.thiranMinFrac = false) (r : Word) :
    azFractional s r = if F64.isFinite (apProcess s.azCoeff s.azZ r).1 = true ∧
      F64.isFinite (apProcess s.azCoeff s.azZ r).2 = true then apProcess s.azCoeff s.azZ r else (r, s.azZ) := by
  simp only [azFractional, h, Bool.false_eq_true, if_false, Bool.and_eq_true]

/-- The azimuth step reads no register that the pipeline writes (R313). -/
theorem azStep_of_frozen {s u : State} (h : u.frozen = s.frozen) (p : Word) :
    azStep u p = ((azStep s p).1, { u with
      mem := (azStep s p).2.mem, azZ := (azStep s p).2.azZ, azWidx := (azStep s p).2.azWidx }) := by
  have hmem : u.mem = s.mem := (congrArg State.mem h :)
  have hwidx : u.azWidx = s.azWidx := (congrArg State.azWidx h :)
  have hindex : azReadIndex u = azReadIndex s := (congrArg azReadIndex h :)
  have hfrac : azFractional u = azFractional s := (congrArg azFractional h :)
  simp only [azStep, hmem, hwidx, hindex, hfrac]

section Step

variable {s : State} (p : Word)

theorem azStep_azWidx : (azStep s p).2.azWidx.val = (s.azWidx.val + 1) % 16 := rfl

/-- The output and the new `AZ_Z` are the fractional stage's, on the word `AZ_INT` behind the pointer. -/
theorem azStep_fractional :
    ((azStep s p).1, (azStep s p).2.azZ) = azFractional s (ringRead (azStep s p).2.mem (azReadIndex s)) := rfl

theorem ringRead_azStep (hm : Memory.wf s.mem = true) (j : Fin 16) :
    ringRead (azStep s p).2.mem j = if j = s.azWidx then p else ringRead s.mem j := ringRead_ringWrite hm _ _ _

theorem readByte_azStep_of_outside (hm : Memory.wf s.mem = true) {a : Nat}
    (ha : a < ringAddr s.azWidx ∨ ringAddr s.azWidx + 8 ≤ a) :
    Memory.readByte (azStep s p).2.mem a = Memory.readByte s.mem a := readByte_ringWrite_of_outside _ _ _ _ hm ha

end Step

/-! ### PROCESS2 (R345) -/

/-- The whole pipeline leaves the inactive equalizer bank alone (R155, R313). -/
theorem pipeline_inactive (s : State) (x : Word) :
    (s.profile = .A → (pipeline s x).2.eqb = s.eqb) ∧ (s.profile = .B → (pipeline s x).2.eqa = s.eqa) := by
  have hfront : (pipelineFront s x).2.profile = s.profile ∧ (pipelineFront s x).2.eqa = s.eqa ∧
      (pipelineFront s x).2.eqb = s.eqb := by
    simp only [pipelineFront]
    obtain ⟨_, _, he, -, -⟩ := hystStep_frame (blendEnvStep (split s (gainStage s (sanitize x))).2
      (split s (gainStage s (sanitize x))).1.1) (split s (gainStage s (sanitize x))).1.1
    rw [he]
    exact ⟨rfl, rfl, rfl⟩
  have hback (s : State) (bl c : Word) : (s.profile = .A → (pipelineBack s bl c).2.eqb = s.eqb) ∧
      (s.profile = .B → (pipelineBack s bl c).2.eqa = s.eqa) := by
    obtain ⟨_, hsat, -⟩ := satStage_frame s bl
    have heq := eqProcess_inactive (satStage s bl).2 (recombine (satStage s bl).1 c)
    obtain ⟨_, hdisp, -⟩ := dispProcess_frame (eqProcess (satStage s bl).2 (recombine (satStage s bl).1 c)).2
      (eqProcess (satStage s bl).2 (recombine (satStage s bl).1 c)).1
    simp only [pipelineBack, fadeStep, dcbProcess, hdisp]
    simpa only [hsat] using heq
  obtain ⟨hprofile, ha, hb⟩ := hfront
  rw [← hprofile, ← ha, ← hb]
  exact hback _ _ _

/-- What PROCESS2 leaves: the pipeline's registers, with the delay line and the output of one azimuth step. -/
theorem processed2_eq (s : State) : processed2 s = { (pipeline s s.op0).2 with
    mem := (azStep s (pipeline s s.op0).1).2.mem, azZ := (azStep s (pipeline s s.op0).1).2.azZ
    azWidx := (azStep s (pipeline s s.op0).1).2.azWidx, res := (azStep s (pipeline s s.op0).1).1 } := by
  simp only [processed2, opSample, azStep_of_frozen (pipeline_frozen s s.op0)]

theorem fault_of_kept {s t : State} (h : t.kept = s.kept) : t.fault = s.fault := (congrArg State.fault h :)

theorem exec_process2 {s : State} (hf : s.fault = none) (hr : s.blockState = .ready) :
    exec .process2 s = .next (complete (processed2 s)) :=
  congrArg Host.Outcome.next (framed_ok hf (if_pos (isReady_iff.mpr hr)))

/-- Settles O28: PROCESS2 in Ready leaves `processed2`, whose delay line is that of one azimuth step from `s`. -/
theorem process2Completes : Obligations.Process2Completes := by
  intro s hf hr hm
  have hkept : (processed2 s).kept = s.kept := processed2_kept s
  have hfault : (processed2 s).fault = none := (fault_of_kept hkept).trans hf
  have hready : (processed2 s).blockState = .ready := (blockState_of_kept hkept).trans hr
  have hfade := processed2_fadeGain s
  have hexec := exec_process2 hf hr
  have hhost := (sameHost_of_kept hkept).complete
  have hsettings := (sameSettings_of_kept hkept).complete
  have hcoeffs := (sameCoeffs_of_kept hkept).complete
  obtain ⟨hb, ha⟩ := pipeline_inactive s s.op0
  rw [processed2_eq] at hfault hready hfade hexec hhost hsettings hcoeffs
  generalize pipeline s s.op0 = u at *
  have hring := ringRead_azStep u.1 hm
  have hfractional := azStep_fractional (s := s) u.1
  refine ⟨_, ringRead (azStep s u.1).2.mem (azReadIndex s), hexec, rfl, rfl, (hring _).trans (if_pos rfl),
    fun i hi => (hring i).trans (if_neg hi), fun a => readByte_azStep_of_outside u.1 hm, rfl,
    fun hbypass => Prod.mk.inj (hfractional.trans (azFractional_bypass hbypass _)), fun hallpass => ?allpass,
    azStep_azWidx u.1, hfade, hb, ha, hhost, hsettings, hcoeffs, hready, hfault⟩
  rw [azFractional_allpass hallpass] at hfractional
  split_ifs at hfractional ⊢ with hfin
  · exact Prod.ext_iff.mp hfractional
  · exact Prod.mk.inj hfractional

/-! ### The integer delay (R264, R268, R271) -/

/-- Sample `k - delay` of the samples written since reset; +0.0 before the first. -/
def delayed (hist : List Word) (delay k : Nat) : Word := if delay ≤ k then hist.getD (k - delay) Lit.zero else Lit.zero

/-- The delay line after fewer than 16 samples from reset, bypassing the fraction: word `j` of the ring holds
sample `j`, and the other words +0.0. -/
structure HoldsSamples (s : State) (hist : List Word) : Prop where
  bypass : F64.lt s.azFrac Config.thiranMinFrac = true
  mem_wf : Memory.wf s.mem = true
  azWidx : s.azWidx.val = hist.length
  ring : ∀ j : Fin 16, ringRead s.mem j = hist.getD j.val Lit.zero

section Holds

variable {s : State} {hist : List Word} (h : HoldsSamples s hist) (p : Word)
include h

theorem HoldsSamples.ring_azStep (j : Fin 16) :
    ringRead (azStep s p).2.mem j = (hist ++ [p]).getD j.val Lit.zero := by
  rw [ringRead_azStep p h.mem_wf]
  have hwidx := h.azWidx
  split_ifs with hj
  · simp [hj, hwidx]
  · have hne : j.val ≠ hist.length := fun he => hj (Fin.ext (he.trans hwidx.symm))
    rw [h.ring]
    rcases Nat.lt_or_gt_of_ne hne with hlt | hgt
    · rw [List.getD_append _ _ _ _ hlt]
    · rw [List.getD_eq_default _ _ (Nat.le_of_lt hgt), List.getD_eq_default]
      simpa using hgt

theorem HoldsSamples.azStep (hlen : hist.length + 1 < 16) : HoldsSamples (azStep s p).2 (hist ++ [p]) where
  bypass := h.bypass
  mem_wf := wf_ringWrite _ _ _ h.mem_wf
  azWidx := by
    rw [azStep_azWidx, h.azWidx, List.length_append, List.length_singleton, Nat.mod_eq_of_lt hlen]
  ring := h.ring_azStep p

/-- The index read wraps to a word not yet written when fewer than `AZ_INT` samples came before (R268). -/
theorem HoldsSamples.azReadIndex_val : (azReadIndex s).val = (hist.length + 16 - s.azInt.val) % 16 := by
  rw [← h.azWidx]
  rfl

/-- The step hands out the sample `AZ_INT` before the one it takes. -/
theorem HoldsSamples.azStep_fst : (Machine.azStep s p).1 = delayed (hist ++ [p]) s.azInt.val hist.length := by
  have hlt : hist.length < 16 := h.azWidx ▸ s.azWidx.isLt
  have hint := s.azInt.isLt
  have hout : (Machine.azStep s p).1 = ringRead (Machine.azStep s p).2.mem (azReadIndex s) :=
    (Prod.mk.inj ((azStep_fractional p).trans (azFractional_bypass h.bypass _))).1
  rw [hout, h.ring_azStep, h.azReadIndex_val, delayed]
  split_ifs with hle
  · rw [show (hist.length + 16 - s.azInt.val) % 16 = hist.length - s.azInt.val by omega]
  · refine List.getD_eq_default _ _ ?_
    rw [List.length_append, List.length_singleton]
    omega

end Holds

/-- Samples that follow change no earlier one. -/
theorem delayed_append {hist : List Word} (ps : List Word) (delay : Nat) {k : Nat} (hk : k < hist.length) :
    delayed (hist ++ ps) delay k = delayed hist delay k := by
  simp only [delayed, List.getD_append _ _ _ _ (Nat.lt_of_le_of_lt (Nat.sub_le k delay) hk)]

/-- Sample by sample, the outputs are the inputs `AZ_INT` indices earlier. -/
theorem azOutputs_getElem? {s : State} {hist ps : List Word} (h : HoldsSamples s hist) {n : Nat} (hn : n < ps.length)
    (hlen : hist.length + n < 16) :
    (azOutputs s ps)[n]? = some (delayed (hist ++ ps) s.azInt.val (hist.length + n)) := by
  induction ps generalizing s hist n with
  | nil => exact absurd hn (Nat.not_lt_zero n)
  | cons p ps ih =>
    rw [azOutputs, List.append_cons]
    cases n with
    | zero =>
      rw [List.getElem?_cons_zero, h.azStep_fst p, Nat.add_zero, delayed_append ps _ (by simp)]
    | succ n =>
      have hsucc : hist.length + (n + 1) = (hist ++ [p]).length + n := by
        rw [List.length_append, List.length_singleton]
        omega
      rw [hsucc] at hlen ⊢
      rw [List.getElem?_cons_succ]
      refine ih (h.azStep p ?_) (Nat.lt_of_succ_lt_succ hn) hlen
      rw [List.length_append, List.length_singleton] at hlen
      omega

/-- The reset state of the delay line holds no sample (R269). -/
theorem holdsSamples_nil {s : State} (hmem : s.mem = []) (hwidx : s.azWidx = 0) (hfrac : F64.isZero s.azFrac = true) :
    HoldsSamples s [] where
  bypass := by
    have hmin : 0 < F64.value Config.thiranMinFrac := by decide +kernel
    refine F64.lt_iff.mpr ⟨F64.isNaN_of_isFinite (F64.isFinite_of_isZero hfrac), by decide, ?_⟩
    rwa [F64.value_eq_zero_iff.mpr hfrac]
  mem_wf := hmem ▸ rfl
  azWidx := hwidx ▸ rfl
  ring j := by rw [hmem, ringRead_nil, List.getD_nil]

/-- Settles O57: every output is the input `AZ_INT` indices earlier, and the impulse is the input at index 0. -/
theorem delayLineImpulse : Obligations.DelayLineImpulse := by
  intro s hmem hwidx hfrac n hn
  rw [azOutputs_getElem? (holdsSamples_nil hmem hwidx hfrac) (by simpa using hn) (by simpa using hn)]
  refine congrArg some ?_
  rw [List.nil_append, List.length_nil, Nat.zero_add, delayed]
  rcases Nat.lt_trichotomy n s.azInt.val with hbefore | hat | hafter
  · rw [if_neg (by omega), if_neg (by omega)]
  · rw [if_pos (by omega), if_pos hat, hat, Nat.sub_self, List.getD_cons_zero]
  · obtain ⟨m, hm⟩ := Nat.exists_eq_add_of_lt hafter
    rw [if_pos (by omega), if_neg (by omega), show n - s.azInt.val = m + 1 by omega, List.getD_cons_succ,
      List.getD_replicate]
    omega

end Sys2Proof.Machine

/-! SUPPORT. The design of the azimuth delay (spec/44_thiran_delay.md R261). Its integer and its fractional part are the
bits of the delay above and below the place of 1.0; each has at most 53, so neither the floor nor the difference is
rounded. -/

namespace Sys2Proof.Machine

/-! ### Exact results (R12) -/

theorem F64.roundSticky_mul (q d : Nat) : F64.roundSticky (q * 2 ^ d) d false = q := by
  have hpos := Nat.two_pow_pos d
  rw [F64.roundSticky, Nat.mul_mod_left, Nat.mul_div_cancel _ hpos, if_neg (by omega)]

/-- A number of 53 bits is rounded at a place that is not above its own. -/
theorem F64.roundShift_le_of_bits {q e : Nat} (hq : q < 2 ^ 53) (hlt : q * 2 ^ e < 2 ^ 2 ^ 16) :
    F64.roundShift (q * 2 ^ e) 0 ≤ e := by
  rcases Nat.eq_zero_or_pos (F64.roundShift (q * 2 ^ e) 0) with hzero | hpos
  · omega
  · have hfull := (Nat.le_div_iff_mul_le (Nat.two_pow_pos _)).mp (F64.le_div_roundShift hlt hpos)
    have hbits := Nat.mul_lt_mul_of_pos_right hq (Nat.two_pow_pos e)
    rw [← Nat.pow_add] at hfull hbits
    have := (Nat.pow_lt_pow_iff_right (a := 2) (by decide)).mp (Nat.lt_of_le_of_lt hfull hbits)
    omega

/-- A number of 53 bits that is not above a finite one is rounded to itself. -/
theorem F64.round_exact {w : Word} {n q e : Nat} (hw : F64.isFinite w = true) (hle : n ≤ F64.mag w)
    (hq : q < 2 ^ 53) (hn : n = q * 2 ^ e) (b : Bool) :
    F64.isFinite (F64.pack b (F64.roundMag n 0 false)) = true ∧
      F64.mag (F64.pack b (F64.roundMag n 0 false)) = n := by
  subst hn
  have hmax := F64.mag_mul_lt (Nat.zero_le _) hw
  have hself := F64.roundMag_mag (Nat.zero_le _) hw
  rw [Nat.pow_zero, Nat.mul_one] at hmax hself
  have hlt := Nat.lt_of_le_of_lt hle hmax
  have hfin : F64.roundMag (q * 2 ^ e) 0 false < F64.infPat :=
    Nat.lt_of_le_of_lt (F64.roundMag_mono 0 hmax hle) (hself ▸ F64.isFinite_iff.mp hw)
  have h63 := F64.roundMag_lt (q * 2 ^ e) 0 false
  refine ⟨(F64.isFinite_pack b h63).mpr hfin, ?_⟩
  have hmag := F64.mag_roundMag hlt hfin
  have hplace := F64.roundShift_le_of_bits hq hlt
  rw [F64.mag_eq_pack, F64.pat_pack b h63]
  generalize F64.roundShift (q * 2 ^ e) 0 = d at hmag hplace
  have hsplit : q * 2 ^ e = q * 2 ^ (e - d) * 2 ^ d := by
    rw [Nat.mul_assoc, ← Nat.pow_add, Nat.sub_add_cancel hplace]
  rw [Nat.pow_zero, Nat.mul_one] at hmag
  rw [hmag, hsplit, F64.roundSticky_mul]

/-- Above and below any place, a finite number splits into two numbers of 53 bits. -/
theorem F64.split_at_place {w : Word} (hw : F64.isFinite w = true) (k : Nat) :
    ∃ e i f, i < 2 ^ 53 ∧ f < 2 ^ 53 ∧ F64.mag w / 2 ^ k * 2 ^ k = i * 2 ^ e ∧ F64.mag w % 2 ^ k = f * 2 ^ e := by
  obtain ⟨s, e, hs, -, hm⟩ := F64.exists_mag_eq (F64.isFinite_iff.mp hw)
  rw [← F64.mag_eq_pack] at hm
  rw [hm]
  rcases Nat.le_total e k with hfine | hcoarse
  · obtain ⟨c, rfl⟩ := Nat.exists_eq_add_of_le' hfine
    refine ⟨e, s / 2 ^ c * 2 ^ c, s % 2 ^ c, Nat.lt_of_le_of_lt (Nat.div_mul_le_self _ _) hs,
      Nat.lt_of_le_of_lt (Nat.mod_le _ _) hs, ?_, ?_⟩
    · rw [Nat.pow_add, Nat.mul_div_mul_right _ _ (Nat.two_pow_pos e), Nat.mul_assoc]
    · rw [Nat.pow_add, Nat.mul_mod_mul_right]
  · have hdvd : 2 ^ k ∣ s * 2 ^ e := Nat.dvd_mul_left_of_dvd (Nat.pow_dvd_pow 2 hcoarse) s
    exact ⟨e, s, 0, hs, Nat.two_pow_pos 53, Nat.div_mul_cancel hdvd, by rw [Nat.mod_eq_zero_of_dvd hdvd, Nat.zero_mul]⟩

theorem F64.value_le_of_not_lt {a b : Word} (ha : F64.isFinite a = true) (hb : F64.isFinite b = true)
    (h : F64.lt a b = false) : F64.value b ≤ F64.value a := by
  simpa [F64.lt, F64.isNaN_of_isFinite ha, F64.isNaN_of_isFinite hb] using h

/-- What is left of a number whose bits below a place are cleared. -/
theorem shiftRight_shiftLeft (n k : Nat) : (n >>> k) <<< k = n / 2 ^ k * 2 ^ k := by
  rw [Nat.shiftRight_eq_div_pow, Nat.shiftLeft_eq]

theorem mul_two_pow_shiftRight (n k : Nat) : (n * 2 ^ k) >>> k = n := by
  rw [← Nat.shiftLeft_eq, Nat.shiftLeft_shiftRight]

/-- The value of a number is that of its bits below a place and of those above. -/
theorem natCast_split (n k : Nat) : (n : Int) = (n % 2 ^ k : Nat) + (n / 2 ^ k * 2 ^ k : Nat) := by
  exact_mod_cast (Nat.mod_add_div' n (2 ^ k)).symm

/-! ### The integer and the fractional part (R13, R261) -/

section Parts

variable {d : Word} (hfin : F64.isFinite d = true) (h0 : 0 ≤ F64.value d)
include hfin h0

/-- `floor` of a number that is not negative: the units above the place of 1.0. -/
theorem F64.value_floor : F64.isFinite (F64.floor d) = true ∧
    F64.value (F64.floor d) = (F64.mag d / 2 ^ 1074 * 2 ^ 1074 : Nat) := by
  rw [F64.floor, hfin]
  cases hz : F64.isZero d with
  | true =>
    rw [if_pos (by simp), F64.value_eq_zero_iff.mpr hz, F64.mag_eq_zero_iff.mpr hz, Nat.zero_div, Nat.zero_mul]
    exact ⟨hfin, rfl⟩
  | false =>
    have hneg : F64.isNeg d = false := by
      rw [Bool.eq_false_iff, ne_eq, ← F64.value_neg_iff hz]
      omega
    obtain ⟨e, i, -, hi, -, hint, -⟩ := F64.split_at_place hfin 1074
    obtain ⟨hf, hm⟩ := F64.round_exact hfin (Nat.div_mul_le_self _ _) hi hint false
    rw [if_neg (by simp), hneg, if_neg (by simp), shiftRight_shiftLeft]
    refine ⟨hf, ?_⟩
    rw [F64.value_of_not_neg (F64.isNeg_pack false (F64.roundMag_lt _ _ _)), hm]

/-- The rest above the floor is exact: the units below the place of 1.0. -/
theorem F64.value_sub_floor : F64.isFinite (F64.sub d (F64.floor d)) = true ∧
    F64.value (F64.sub d (F64.floor d)) = (F64.mag d % 2 ^ 1074 : Nat) := by
  obtain ⟨hi, hvalue⟩ := F64.value_floor hfin h0
  have hrest : F64.value d + F64.value (F64.neg (F64.floor d)) = (F64.mag d % 2 ^ 1074 : Nat) := by
    rw [F64.value_neg, hvalue, F64.value_eq_mag h0, natCast_split (F64.mag d) 1074,
      Int.add_neg_cancel_right]
  rw [F64.sub, F64.add_of_finite hfin (by simpa using hi), hrest]
  split
  · rename_i hz
    have hzero := F64.isZero_pack_zero (F64.isNeg d && F64.isNeg (F64.neg (F64.floor d)))
    exact ⟨F64.isFinite_of_isZero hzero, (F64.value_eq_zero_iff.mpr hzero).trans hz.symm⟩
  · obtain ⟨e, -, f, -, hf, -, hfrac⟩ := F64.split_at_place hfin 1074
    obtain ⟨hround, hm⟩ := F64.round_exact hfin (Nat.mod_le _ _) hf hfrac false
    rw [decide_eq_false (Int.not_lt.mpr (Int.natCast_nonneg _)), Int.natAbs_natCast]
    refine ⟨hround, ?_⟩
    rw [F64.value_of_not_neg (F64.isNeg_pack false (F64.roundMag_lt _ _ _)), hm]

theorem F64.toNat_floor : F64.toNat (F64.floor d) = F64.mag d / 2 ^ 1074 := by
  rw [F64.toNat, ← F64.natAbs_value, (F64.value_floor hfin h0).2, Int.natAbs_natCast,
    mul_two_pow_shiftRight]

/-- A floor of at most 15.0 has an integer below 16. -/
theorem F64.toNat_floor_lt (hle : F64.lt Lit.fifteen (F64.floor d) = false) : F64.toNat (F64.floor d) < 16 := by
  have hfifteen : F64.value Lit.fifteen = (15 * 2 ^ 1074 : Nat) := by decide +kernel
  obtain ⟨hi, hvalue⟩ := F64.value_floor hfin h0
  have hbound := F64.value_le_of_not_lt (by decide) hi hle
  rw [hvalue, hfifteen, Int.ofNat_le] at hbound
  rw [F64.toNat_floor hfin h0]
  exact Nat.lt_succ_of_le (Nat.le_of_mul_le_mul_right hbound (by positivity))

end Parts

/-! ### The design (R261) -/

/-- When the design succeeds, and what it gives. -/
theorem azDesign_eq_some {p : Profile} {fs : Word} {z : AzimuthSet} (h : azDesign p fs = some z) :
    ∃ d, d = F64.div (F64.mul (Config.azMicroseconds p) fs) Lit.million ∧ F64.isFinite d = true ∧
      F64.lt d Lit.zero = false ∧ F64.lt Lit.fifteen (F64.floor d) = false ∧
      z = { delay := d, int := Fin.ofNat 16 (F64.toNat (F64.floor d)), frac := F64.sub d (F64.floor d)
            coeff := F64.div (F64.sub Lit.one (F64.sub d (F64.floor d))) (F64.add Lit.one (F64.sub d (F64.floor d))) } := by
  refine ⟨_, rfl, ?_⟩
  simp only [azDesign] at h
  generalize F64.div (F64.mul (Config.azMicroseconds p) fs) Lit.million = d at h ⊢
  split_ifs at h with hrange hlarge hok
  simp only [Bool.or_eq_true, Bool.not_eq_true', not_or, Bool.not_eq_false, Bool.not_eq_true] at hrange
  exact ⟨hrange.1, hrange.2, Bool.eq_false_iff.mpr hlarge, (Option.some.inj h).symm⟩

/-- Settles O58: the two parts of the delay are exact, and the design fails unless the integer part is below 16. -/
theorem azimuthDesignRange : Obligations.AzimuthDesignRange := by
  intro p fs z h
  obtain ⟨d, hd, hfin, hpos, hle, rfl⟩ := azDesign_eq_some h
  have h0 : 0 ≤ F64.value d := F64.value_zero ▸ F64.value_le_of_not_lt hfin F64.isFinite_zero hpos
  obtain ⟨hfrac, hvalue⟩ := F64.value_sub_floor hfin h0
  have hnum := F64.isNaN_of_isFinite hfrac
  have hmod : F64.mag d % 2 ^ 1074 < 2 ^ 1074 := Nat.mod_lt _ (by positivity)
  refine ⟨F64.le_iff.mpr ⟨by decide, hnum, ?_⟩, F64.lt_iff.mpr ⟨hnum, by decide, ?_⟩, hd, ?_, rfl⟩
  · rw [F64.value_zero, hvalue]
    exact Int.natCast_nonneg _
  · rw [F64.value_one, hvalue]
    exact_mod_cast hmod
  · have hint : (Fin.ofNat 16 (F64.toNat (F64.floor d))).val = F64.mag d / 2 ^ 1074 := by
      rw [← F64.toNat_floor hfin h0]
      exact Nat.mod_eq_of_lt (F64.toNat_floor_lt hfin h0 hle)
    rw [hvalue, F64.value_eq_mag h0, hint, natCast_split (F64.mag d) 1074, Nat.cast_mul, Nat.cast_pow,
      Nat.cast_ofNat]

end Sys2Proof.Machine

/-! SUPPORT. The hysteresis port (spec/45_hysteresis_port.md): the block's guard on what the port returns (R288, R290), and
what every solver on the port keeps: its zero fixed point, the saturation magnetization and the limit of its output (R284,
R287, R289). The limit of `JA_REF` reaches its ceiling and no higher, because the width of its knee is exact. -/

namespace Sys2Proof.Machine

/-! ### The guard on the port (R288, R290) -/

theorem hystAccept_of_finite {r : JaResult} (hH : F64.isFinite r.hn = true) (hM : F64.isFinite r.mn = true) (s : State) :
    hystAccept r s = (portOut r.out, { s with hystH := r.hn, hystM := r.mn }) := by
  simp [hystAccept, hH, hM]

theorem hystAccept_of_not_finite {r : JaResult} (h : F64.isFinite r.hn = false ∨ F64.isFinite r.mn = false)
    (s : State) : hystAccept r s = (Lit.zero, { s with hystH := Lit.zero, hystM := Lit.zero }) := by
  rw [hystAccept, if_neg]
  rcases h with h | h <;> simp [h]

/-- Step 4 replaces a NaN by the dry value: the scaling and the limiter keep it a NaN. -/
theorem hystScale_nan (s : State) (v : Word) : hystScale s F64.nan v = v := by
  have hmul : F64.mul F64.nan s.tuning.outScale = F64.nan := by simp [F64.mul, F64.isNaN_nan]
  rw [hystScale, hmul, hlim_of_isNaN _ F64.isNaN_nan, guardOr, if_neg (by decide)]

/-- Settles O56, clause by clause. -/
theorem hysteresisGuard : Obligations.HysteresisGuard := by
  refine ⟨fun _ _ => rfl, fun s r => ⟨fun hH hM => ?_, fun h => hystAccept_of_not_finite h s⟩⟩
  rw [hystAccept_of_finite hH hM]
  refine ⟨rfl, portOut_of_finite, fun hout v => ?_⟩
  rw [portOut_of_not_finite hout]
  exact hystScale_nan _ v

/-! ### Bounds and clamps (R14) -/

/-- A bound on a magnitude, by signed values; an infinity bounds every number. -/
theorem F64.abs_le_iff_value {w c : Word} : F64.le (F64.abs w) c = true ↔ F64.isNaN w = false ∧ F64.isNaN c = false ∧
    -F64.value c ≤ F64.value w ∧ F64.value w ≤ F64.value c := by
  rw [F64.le_iff, F64.isNaN_abs, F64.value_of_not_neg (F64.isNeg_abs w), F64.mag_abs, ← F64.natAbs_value]
  refine and_congr_right fun _ => and_congr_right fun _ => ?_
  omega

/-- What a clamp of numbers can return. -/
theorem clamp_cases {v lo hi : Word} (hv : F64.isNaN v = false) (hlo : F64.isNaN lo = false)
    (hhi : F64.isNaN hi = false) :
    (clamp v lo hi = v ∧ F64.value lo ≤ F64.value v ∧ F64.value v ≤ F64.value hi) ∨
    (clamp v lo hi = lo ∧ F64.value v ≤ F64.value lo ∧ F64.value lo ≤ F64.value hi) ∨
    (clamp v lo hi = hi ∧ (F64.value hi ≤ F64.value v ∨ F64.value hi ≤ F64.value lo)) := by
  rw [clamp]
  rcases F64.max_cases hv hlo with ⟨hmax, hle⟩ | ⟨hmax, hle⟩
  · rw [hmax]
    rcases F64.min_cases hv hhi with ⟨hmin, hle'⟩ | ⟨hmin, hle'⟩
    · exact .inl ⟨hmin, hle, hle'⟩
    · exact .inr (.inr ⟨hmin, .inl hle'⟩)
  · rw [hmax]
    rcases F64.min_cases hlo hhi with ⟨hmin, hle'⟩ | ⟨hmin, hle'⟩
    · exact .inr (.inl ⟨hmin, hle, hle'⟩)
    · exact .inr (.inr ⟨hmin, .inr hle'⟩)

/-- A clamp is within its upper end when its lower end is. -/
theorem abs_clamp_le {v lo hi : Word} (hv : F64.isNaN v = false) (hlo : F64.le (F64.abs lo) hi = true) :
    F64.le (F64.abs (clamp v lo hi)) hi = true := by
  obtain ⟨hlonum, hhinum, hge, hle⟩ := F64.abs_le_iff_value.mp hlo
  rw [F64.abs_le_iff_value]
  rcases clamp_cases hv hlonum hhinum with ⟨he, h1, h2⟩ | ⟨he, -, -⟩ | ⟨he, -⟩
  · exact he.symm ▸ ⟨hv, hhinum, by omega, h2⟩
  · exact he.symm ▸ ⟨hlonum, hhinum, hge, hle⟩
  · exact he.symm ▸ ⟨hhinum, hhinum, by omega, le_refl _⟩

/-- A clamp to a range around zero keeps a zero, but for its sign. -/
theorem isZero_clamp {v b : Word} (hv : F64.isZero v = true) (hb : F64.isNaN b = false) (hpos : F64.isNeg b = false) :
    F64.isZero (clamp v (F64.neg b) b) = true := by
  have hv0 := F64.value_eq_zero_iff.mpr hv
  have hb0 := F64.value_of_not_neg hpos
  have hneg := F64.value_neg b
  rw [← F64.value_eq_zero_iff]
  rcases clamp_cases (F64.isNaN_of_isFinite (F64.isFinite_of_isZero hv)) (show F64.isNaN (F64.neg b) = false by simpa)
    hb with ⟨he, -, -⟩ | ⟨he, hle, -⟩ | ⟨he, hle⟩
  all_goals
    rw [he]
    omega

/-- A value held to a range around zero, as the solvers hold a step and the magnetization (R284): only a finite one is
clamped. -/
def heldWithin (b v : Word) : Word := if F64.isFinite v then clamp v (F64.neg b) b else v

theorem heldWithin_of_finite (b : Word) {v : Word} (h : F64.isFinite v = true) :
    heldWithin b v = clamp v (F64.neg b) b := if_pos h

theorem finite_of_heldWithin {b v : Word} (h : F64.isFinite (heldWithin b v) = true) : F64.isFinite v = true := by
  by_contra hv
  rw [heldWithin, if_neg hv] at h
  exact hv h

theorem heldWithin_le {b v : Word} (hb : F64.isNaN b = false) (hpos : F64.isNeg b = false)
    (h : F64.isFinite (heldWithin b v) = true) : F64.le (F64.abs (heldWithin b v)) b = true := by
  have hv := finite_of_heldWithin h
  have hb0 := F64.value_of_not_neg hpos
  rw [heldWithin_of_finite b hv]
  refine abs_clamp_le (F64.isNaN_of_isFinite hv) ?_
  rw [F64.abs_neg, F64.abs_le_iff_value]
  exact ⟨hb, hb, by omega, le_refl _⟩

theorem isZero_heldWithin {b v : Word} (hb : F64.isNaN b = false) (hpos : F64.isNeg b = false)
    (h : F64.isZero v = true) : F64.isZero (heldWithin b v) = true := by
  rw [heldWithin_of_finite b (F64.isFinite_of_isZero h)]
  exact isZero_clamp h hb hpos

/-! ### Products and quotients -/

theorem F64.isNaN_mul_of_finite {a b : Word} (ha : F64.isFinite a = true) (hb : F64.isFinite b = true) :
    F64.isNaN (F64.mul a b) = false := by
  rw [F64.mul_of_finite ha hb]
  exact F64.isNaN_pack_of_le _ (F64.roundMag_le _ _ _)

/-- A zero divided by anything is a zero or a NaN. -/
theorem F64.isZero_div_of_finite {z a : Word} (hz : F64.isZero z = true) (h : F64.isFinite (F64.div z a) = true) :
    F64.isZero (F64.div z a) = true := by
  obtain ⟨hzfin, ha⟩ := F64.finite_of_div h
  cases hfin : F64.isFinite a with
  | true => exact F64.isZero_div hz hfin ha
  | false =>
    cases hnan : F64.isNaN a with
    | true => simp [F64.div, hnan, F64.isFinite_nan] at h
    | false =>
      have hinf : F64.isInf a = true := by simpa [F64.isFinite_eq, hnan] using hfin
      simp [F64.div, hnan, hinf, F64.isNaN_of_isFinite hzfin, F64.isInf_of_isFinite hzfin, F64.isZero_pack_zero]

theorem F64.mag_mul_mag_lt {a b : Word} (ha : F64.isFinite a = true) (hb : F64.isFinite b = true) :
    F64.mag a * F64.mag b < 2 ^ 2 ^ 16 := by
  have hmax : F64.mag (F64.pack false F64.infPat) = 2 ^ 2098 := by decide +kernel
  have hlt := F64.mag_lt_of_isFinite hb (F64.isFinite_pack_infPat false)
  rw [hmax] at hlt
  exact Nat.lt_of_le_of_lt (Nat.mul_le_mul_left _ (Nat.le_of_lt hlt)) (F64.mag_mul_lt (by decide) ha)

/-- A product is not below a finite number that the exact product is not below. -/
theorem F64.le_mag_mul {a b c : Word} (ha : F64.isFinite a = true) (hb : F64.isFinite b = true)
    (hc : F64.isFinite c = true) (h : F64.mag c * 2 ^ 1074 ≤ F64.mag a * F64.mag b) :
    F64.mag c ≤ F64.mag (F64.mul a b) := by
  have h63 := F64.roundMag_lt (F64.mag a * F64.mag b) 1074 false
  rw [F64.mul_of_finite ha hb, F64.mag_eq_pack c, F64.mag_eq_pack (F64.pack (_ != _) _), F64.pat_pack _ h63]
  refine F64.mag_mono h63 ?_
  rw [← F64.roundMag_mag (j := 1074) (by decide) hc]
  exact F64.roundMag_mono 1074 (F64.mag_mul_mag_lt ha hb) h

/-! ### Exact differences (R12) -/

/-- Sterbenz's condition: a difference of numbers that are within a factor of two, or of which the larger has no more than
53 bits in units, has 53 bits itself. -/
theorem F64.exists_mag_sub_eq {a b : Word} (ha : F64.isFinite a = true) (hb : F64.isFinite b = true)
    (hle : F64.mag b ≤ F64.mag a) (hclose : F64.mag a < 2 ^ 53 ∨ F64.mag a ≤ 2 * F64.mag b) :
    ∃ q e, q < 2 ^ 53 ∧ F64.mag a - F64.mag b = q * 2 ^ e := by
  rcases hclose with hsmall | hclose
  · exact ⟨F64.mag a - F64.mag b, 0, by omega, by omega⟩
  obtain ⟨s, e, hs, -, hma⟩ := F64.exists_mag_eq (F64.isFinite_iff.mp ha)
  obtain ⟨t, f, ht, -, hmb⟩ := F64.exists_mag_eq (F64.isFinite_iff.mp hb)
  rw [← F64.mag_eq_pack] at hma hmb
  rcases Nat.le_total e f with hef | hfe
  · obtain ⟨k, rfl⟩ := Nat.exists_eq_add_of_le' hef
    refine ⟨s - t * 2 ^ k, e, by omega, ?_⟩
    rw [hma, hmb, Nat.pow_add, ← Nat.mul_assoc, Nat.sub_mul]
  · obtain ⟨k, rfl⟩ := Nat.exists_eq_add_of_le' hfe
    have hdiff : F64.mag a - F64.mag b = (s * 2 ^ k - t) * 2 ^ f := by
      rw [hma, hmb, Nat.pow_add, ← Nat.mul_assoc, Nat.sub_mul]
    refine ⟨s * 2 ^ k - t, f, Nat.lt_of_le_of_lt ?_ ht, hdiff⟩
    refine Nat.le_of_mul_le_mul_right (c := 2 ^ f) ?_ (Nat.two_pow_pos f)
    omega

/-- Under Sterbenz's condition a difference is exact. -/
theorem F64.sub_exact {a b : Word} (ha : F64.isFinite a = true) (hb : F64.isFinite b = true)
    (ha0 : F64.isNeg a = false) (hb0 : F64.isNeg b = false) (hle : F64.mag b ≤ F64.mag a)
    (hclose : F64.mag a < 2 ^ 53 ∨ F64.mag a ≤ 2 * F64.mag b) :
    F64.isFinite (F64.sub a b) = true ∧ F64.mag (F64.sub a b) = F64.mag a - F64.mag b := by
  have hvalue : F64.value a + F64.value (F64.neg b) = (F64.mag a - F64.mag b : Nat) := by
    rw [F64.value_neg, F64.value_of_not_neg ha0, F64.value_of_not_neg hb0]
    omega
  rw [F64.sub, F64.add_of_finite ha (by simpa using hb), hvalue, Int.natAbs_natCast]
  split
  · have hzero := F64.isZero_pack_zero (F64.isNeg a && F64.isNeg (F64.neg b))
    have := F64.mag_eq_zero_iff.mpr hzero
    exact ⟨F64.isFinite_of_isZero hzero, by omega⟩
  · obtain ⟨q, e, hq, hn⟩ := F64.exists_mag_sub_eq ha hb hle hclose
    exact F64.round_exact ha (Nat.sub_le _ _) hq hn _

/-- A number above 53 bits in units has an exact half. -/
theorem F64.exists_half {a : Word} (ha : F64.isFinite a = true) (hlarge : 2 ^ 53 ≤ F64.mag a) :
    ∃ c, F64.isFinite c = true ∧ F64.mag a = 2 * F64.mag c := by
  obtain ⟨s, e, hs, -, hm⟩ := F64.exists_mag_eq (F64.isFinite_iff.mp ha)
  rw [← F64.mag_eq_pack] at hm
  cases e with
  | zero => omega
  | succ e =>
    have htwice : F64.mag a = 2 * (s * 2 ^ e) := by rw [hm, Nat.pow_succ, ← Nat.mul_assoc, Nat.mul_comm]
    obtain ⟨hfin, hmag⟩ := F64.round_exact (n := s * 2 ^ e) ha (by omega) hs rfl false
    exact ⟨_, hfin, htwice.trans (congrArg _ hmag.symm)⟩

/-! ### The output limit (R287, R294) -/

theorem finitePositive_iff {v : Word} : finitePositive v = true ↔ F64.isFinite v = true ∧ F64.lt Lit.zero v = true := by
  simp [finitePositive]

theorem isNeg_softTop {ms : Word} (h : F64.isNeg ms = false) : F64.isNeg (softTop ms) = false :=
  F64.isNeg_mul (by decide) h

theorem isNeg_softStart {ms : Word} (h : F64.isNeg ms = false) : F64.isNeg (softStart ms) = false :=
  F64.isNeg_mul (by decide) (isNeg_softTop h)

theorem softM_of_not_gt (L : NumLibChoice) {m ms : Word} (h : F64.lt (softStart ms) (F64.abs m) = false) :
    softM L m ms = m := by simp [softM, h]

theorem attachedOut_of_not_gt {ms m : Word} (o : Word) (h : F64.lt (softStart ms) (F64.abs m) = false) :
    attachedOut ms m o = m := by simp [attachedOut, h]

/-- The width of the knee of `SOFTM`. -/
def kneeWidth (ms : Word) : Word := F64.sub (softTop ms) (softStart ms)

/-- The magnitude that `SOFTM` gives above the knee, `u` being the excess over the knee in widths. -/
def softKneeMag (L : NumLibChoice) (ms u : Word) : Word :=
  F64.add (softStart ms) (F64.mul (kneeWidth ms) (NumLibChoice.tanh L u))

theorem softM_of_gt (L : NumLibChoice) {m ms : Word} (h : F64.lt (softStart ms) (F64.abs m) = true) :
    softM L m ms = F64.mul (sgn m)
      (softKneeMag L ms (F64.div (F64.sub (F64.abs m) (softStart ms)) (kneeWidth ms))) := if_pos h

theorem attachedOut_of_gt {ms m : Word} (o : Word) (h : F64.lt (softStart ms) (F64.abs m) = true) :
    attachedOut ms m o = F64.mul (sgn m) (clamp (F64.abs o) (softStart ms) (softTop ms)) := if_pos h

/-- The width of the knee is exact: the knee is at least half the ceiling, unless they are so small that every difference
is exact. -/
theorem kneeWidth_exact {ms : Word} (hpos : F64.isNeg ms = false) (hstart : F64.isFinite (softStart ms) = true)
    (htop : F64.isFinite (softTop ms) = true) (hlt : F64.mag (softStart ms) < F64.mag (softTop ms)) :
    F64.isFinite (kneeWidth ms) = true ∧
      F64.mag (kneeWidth ms) = F64.mag (softTop ms) - F64.mag (softStart ms) := by
  refine F64.sub_exact htop hstart (isNeg_softTop hpos) (isNeg_softStart hpos) (Nat.le_of_lt hlt) ?_
  refine (Nat.lt_or_ge (F64.mag (softTop ms)) (2 ^ 53)).imp_right fun hlarge => ?_
  obtain ⟨c, hc, hhalf⟩ := F64.exists_half htop hlarge
  have hscale : 2 ^ 1074 ≤ F64.mag Config.softKnee * 2 := by decide +kernel
  rw [hhalf]
  refine Nat.mul_le_mul_left 2 (F64.le_mag_mul (by decide) htop hc ?_)
  calc F64.mag c * 2 ^ 1074 ≤ F64.mag c * (F64.mag Config.softKnee * 2) := Nat.mul_le_mul_left _ hscale
    _ = F64.mag Config.softKnee * F64.mag (softTop ms) := by rw [hhalf]; ring

section Saturation

variable {ms : Word} (hfin : F64.isFinite ms = true) (hpos : F64.isNeg ms = false)
include hfin hpos

/-- The extended ceiling, which may be an infinity, is not below the saturation magnetization. -/
theorem abs_le_softTop {m : Word} (h : F64.le (F64.abs m) ms = true) : F64.le (F64.abs m) (softTop ms) = true := by
  have hscale : 2 ^ 1074 ≤ F64.mag Config.softCeil := by decide +kernel
  have hceil : F64.mag ms ≤ F64.mag (softTop ms) := by
    refine F64.le_mag_mul (by decide) hfin hfin ?_
    rw [Nat.mul_comm]
    exact Nat.mul_le_mul_right _ hscale
  obtain ⟨hnum, hmag⟩ := (F64.abs_le_iff hfin hpos).mp h
  rw [F64.le_iff, F64.isNaN_abs, F64.value_of_not_neg (F64.isNeg_abs m), F64.mag_abs,
    F64.value_of_not_neg (isNeg_softTop hpos)]
  exact ⟨hnum, F64.isNaN_mul_of_finite (by decide) hfin, Int.ofNat_le.mpr (hmag.trans hceil)⟩

/-- Above the knee neither the knee nor the ceiling is an infinity, and the knee lies below the ceiling. -/
theorem knee_of_gt {m : Word} (hm : F64.le (F64.abs m) ms = true) (h : F64.lt (softStart ms) (F64.abs m) = true) :
    F64.isFinite (softStart ms) = true ∧ F64.isFinite (softTop ms) = true ∧
      F64.mag (softStart ms) < F64.mag (softTop ms) := by
  obtain ⟨-, hmag⟩ := (F64.abs_le_iff hfin hpos).mp hm
  obtain ⟨-, -, hlt⟩ := F64.lt_iff.mp h
  rw [F64.value_of_not_neg (isNeg_softStart hpos), F64.value_of_not_neg (F64.isNeg_abs m), F64.mag_abs,
    Int.ofNat_lt] at hlt
  have hstart : F64.isFinite (softStart ms) = true := by
    by_contra hinf
    have := F64.mag_lt_of_isFinite hfin (Bool.eq_false_iff.mpr hinf)
    omega
  have htop : F64.isFinite (softTop ms) = true := (F64.finite_of_mul hstart).2
  obtain ⟨-, hceil⟩ := (F64.abs_le_iff htop (isNeg_softTop hpos)).mp (abs_le_softTop hfin hpos hm)
  exact ⟨hstart, htop, Nat.lt_of_lt_of_le hlt hceil⟩

/-- The knee and its width add up to the ceiling. -/
theorem softM_le (L : NumLibChoice) {m : Word} (hm : F64.le (F64.abs m) ms = true)
    (h : F64.lt (softStart ms) (F64.abs m) = true) : F64.le (F64.abs (softM L m ms)) (softTop ms) = true := by
  have hone : F64.isNeg Lit.one = false := by decide
  have hmfin := F64.isFinite_of_abs_le hfin hpos hm
  obtain ⟨hstart, htop, hlt⟩ := knee_of_gt hfin hpos hm h
  obtain ⟨hwidth, hwmag⟩ := kneeWidth_exact hpos hstart htop hlt
  have hwz : F64.isZero (kneeWidth ms) = false := by
    rw [Bool.eq_false_iff, ne_eq, ← F64.mag_eq_zero_iff]
    omega
  have hu : F64.isNaN (F64.div (F64.sub (F64.abs m) (softStart ms)) (kneeWidth ms)) = false :=
    F64.isNaN_div_of_number (F64.isNaN_add_of_finite (by simpa using hmfin) (by simpa using hstart)) hwidth hwz
  have htanh := NumLibChoice.tanh_le L hu
  obtain ⟨-, htmag⟩ := (F64.abs_le_iff F64.isFinite_one hone).mp htanh
  rw [F64.mag_one] at htmag
  have habs : F64.isFinite (F64.abs (kneeWidth ms)) = true := by simpa using hwidth
  have hprod := F64.abs_mul_le hwidth (F64.isFinite_of_abs_le F64.isFinite_one hone htanh) habs
    (F64.isNeg_abs _) (by rw [F64.mag_abs]; exact Nat.mul_le_mul_left _ htmag)
  obtain ⟨-, hpmag⟩ := (F64.abs_le_iff habs (F64.isNeg_abs _)).mp hprod
  rw [F64.mag_abs, hwmag] at hpmag
  rw [softM_of_gt L h]
  refine abs_sgn_mul_le m htop (isNeg_softTop hpos) ?_
  exact F64.abs_add_le hstart (F64.isFinite_of_abs_le habs (F64.isNeg_abs _) hprod) htop (isNeg_softTop hpos)
    (by omega)

/-- A free solver's output is cut to the ceiling. -/
theorem attachedOut_le {m o : Word} (hm : F64.le (F64.abs m) ms = true) (ho : F64.isFinite o = true)
    (h : F64.lt (softStart ms) (F64.abs m) = true) : F64.le (F64.abs (attachedOut ms m o)) (softTop ms) = true := by
  obtain ⟨hstart, htop, hlt⟩ := knee_of_gt hfin hpos hm h
  rw [attachedOut_of_gt o h]
  refine abs_sgn_mul_le m htop (isNeg_softTop hpos) (abs_clamp_le (F64.isNaN_of_isFinite (by simpa using ho)) ?_)
  exact (F64.abs_le_iff htop (isNeg_softTop hpos)).mpr ⟨F64.isNaN_of_isFinite hstart, Nat.le_of_lt hlt⟩

end Saturation

/-! ### Limited results (R284, R287, R289 property 5) -/

/-- A result whose magnetization, if finite, is within `±Ms`, and whose output, if both are finite, is the magnetization up
to the knee and never above the extended ceiling. -/
def JaResult.Limited (ms : Word) (r : JaResult) : Prop :=
  (F64.isFinite r.mn = true → F64.le (F64.abs r.mn) ms = true) ∧
  (F64.isFinite r.mn = true → F64.isFinite r.out = true →
    (F64.le (F64.abs r.mn) (softStart ms) = true → r.out = r.mn) ∧
    F64.le (F64.abs r.out) (softTop ms) = true)

theorem JaResult.Limited.neg {ms : Word} {r : JaResult} (h : r.Limited ms) :
    JaResult.Limited ms ⟨F64.neg r.hn, F64.neg r.mn, F64.neg r.out⟩ := by
  obtain ⟨hmag, hout⟩ := h
  simp only [JaResult.Limited, F64.isFinite_neg, F64.abs_neg]
  refine ⟨hmag, fun hm ho => ?_⟩
  obtain ⟨hsame, hle⟩ := hout hm ho
  exact ⟨fun hknee => congrArg F64.neg (hsame hknee), hle⟩

section Limited

variable {ms : Word} (hfin : F64.isFinite ms = true) (hpos : F64.isNeg ms = false)
include hfin hpos

/-- A result is limited if its output is the magnetization up to the knee and no more than the ceiling above it. -/
theorem JaResult.limited_of_knee {r : JaResult} (hm : F64.isFinite r.mn = true → F64.le (F64.abs r.mn) ms = true)
    (hbelow : F64.isFinite r.mn = true → F64.isFinite r.out = true →
      F64.lt (softStart ms) (F64.abs r.mn) = false → r.out = r.mn)
    (habove : F64.isFinite r.mn = true → F64.isFinite r.out = true →
      F64.lt (softStart ms) (F64.abs r.mn) = true → F64.le (F64.abs r.out) (softTop ms) = true) : r.Limited ms := by
  refine ⟨hm, fun hmfin hofin => ⟨fun hle => hbelow hmfin hofin (F64.lt_eq_false_of_le hle), ?_⟩⟩
  cases hgt : F64.lt (softStart ms) (F64.abs r.mn) with
  | true => exact habove hmfin hofin hgt
  | false =>
    rw [hbelow hmfin hofin hgt]
    exact abs_le_softTop hfin hpos (hm hmfin)

theorem JaResult.zero_limited : JaResult.zero.Limited ms := by
  have hzero : F64.le (F64.abs JaResult.zero.mn) ms = true := F64.le_zero_of_not_neg hfin hpos
  exact ⟨fun _ => hzero, fun _ _ => ⟨fun _ => rfl, abs_le_softTop hfin hpos hzero⟩⟩

end Limited

/-! ### The reference solver (R292) -/

/-- A Newton iteration takes a held step from `m` and holds the result: `chi` and `j` are its susceptibility and its
derivative. -/
theorem jaNewton_eq (L : NumLibChoice) (P : JaParams) (ms dH dl mp h m : Word) : ∃ chi j,
    jaNewton L P ms dH dl mp h m = heldWithin ms (F64.sub m (heldWithin (F64.mul Config.jaStepFrac ms)
      (F64.div (F64.sub (F64.sub m mp) (F64.mul chi dH)) j))) := ⟨_, _, rfl⟩

/-- What every iteration keeps, all of them keep. -/
theorem jaIterate_keeps {L : NumLibChoice} {P : JaParams} {ms dH dl mp h : Word} {p : Word → Prop}
    (hstep : ∀ m, p m → p (jaNewton L P ms dH dl mp h m)) (n : Nat) {m : Word} (hm : p m) :
    p (jaIterate L P ms dH dl mp h n m) := by
  induction n generalizing m with
  | zero => exact hm
  | succ n ih => exact ih (hstep m hm)

/-- The result by its last iterate `m`; `dl` is the direction of the field. -/
theorem jaRef_eq (L : NumLibChoice) (P : JaParams) (ms fs hp mp h : Word) :
    ∃ dl m, m = jaIterate L P ms (slewLimit fs hp h) dl mp h Config.jaIters mp ∧
      jaRef L P ms fs hp mp h = if F64.isFinite m then ⟨h, m, softM L m ms⟩ else JaResult.zero := by
  rw [jaRef]
  exact ⟨_, _, rfl, rfl⟩

section Reference

variable {ms : Word} (hfin : F64.isFinite ms = true) (hpos : F64.isNeg ms = false)
include hfin hpos

theorem jaNewton_le {L : NumLibChoice} {P : JaParams} {dH dl mp h m : Word}
    (hm : F64.isFinite (jaNewton L P ms dH dl mp h m) = true) :
    F64.le (F64.abs (jaNewton L P ms dH dl mp h m)) ms = true := by
  obtain ⟨chi, j, he⟩ := jaNewton_eq L P ms dH dl mp h m
  rw [he] at hm ⊢
  exact heldWithin_le (F64.isNaN_of_isFinite hfin) hpos hm

/-- The first of the eight iterations brings the magnetization within `±Ms`, and the other seven keep it there. -/
theorem jaRef_limited (L : NumLibChoice) (P : JaParams) (fs hp mp h : Word) :
    (jaRef L P ms fs hp mp h).Limited ms := by
  obtain ⟨dl, m, hm, he⟩ := jaRef_eq L P ms fs hp mp h
  have hle : F64.isFinite m = true → F64.le (F64.abs m) ms = true := by
    rw [hm]
    exact jaIterate_keeps (p := fun m => F64.isFinite m = true → F64.le (F64.abs m) ms = true)
      (fun _ _ => jaNewton_le hfin hpos) 7 (jaNewton_le hfin hpos)
  rw [he]
  split
  · exact JaResult.limited_of_knee hfin hpos hle (fun _ _ => softM_of_not_gt L)
      (fun hmfin _ => softM_le hfin hpos L (hle hmfin))
  · exact JaResult.zero_limited hfin hpos

/-- With no field step and no earlier magnetization the residual is a zero, or not finite; then so is the next iterate. -/
theorem isZero_jaNewton {L : NumLibChoice} {P : JaParams} {dH dl mp h m : Word} (hdH : F64.isZero dH = true)
    (hmp : F64.isZero mp = true) (hm : F64.isFinite m = true → F64.isZero m = true)
    (hnext : F64.isFinite (jaNewton L P ms dH dl mp h m) = true) :
    F64.isZero (jaNewton L P ms dH dl mp h m) = true := by
  obtain ⟨chi, j, he⟩ := jaNewton_eq L P ms dH dl mp h m
  rw [he] at hnext ⊢
  obtain ⟨hmfin, hheld⟩ := F64.finite_of_sub (finite_of_heldWithin hnext)
  have hstep := finite_of_heldWithin hheld
  have hchi := (F64.finite_of_mul (F64.finite_of_sub (F64.finite_of_div hstep).1).2).1
  have hresidual := F64.isZero_sub (F64.isZero_sub (hm hmfin) hmp) (F64.isZero_mul hchi hdH)
  have hzero := isZero_heldWithin (F64.isNaN_mul_of_finite (a := Config.jaStepFrac) (by decide) hfin)
    (F64.isNeg_mul (by decide) hpos) (F64.isZero_div_of_finite hresidual hstep)
  exact isZero_heldWithin (F64.isNaN_of_isFinite hfin) hpos (F64.isZero_sub (hm hmfin) hzero)

end Reference

/-- A zero of either sign in every component of the result. -/
def JaResult.IsZero (r : JaResult) : Prop :=
  F64.isZero r.hn = true ∧ F64.isZero r.mn = true ∧ F64.isZero r.out = true

theorem JaResult.isZero_zero : JaResult.zero.IsZero := ⟨rfl, rfl, rfl⟩

/-- No field difference gives no field step, at any positive rate (R282). -/
theorem isZero_slewLimit {fs hp h : Word} (hfs : finitePositive fs = true) (hhp : F64.isZero hp = true)
    (hh : F64.isZero h = true) : F64.isZero (slewLimit fs hp h) = true := by
  obtain ⟨hfin, hgt⟩ := finitePositive_iff.mp hfs
  have hz : F64.isZero fs = false := by
    obtain ⟨-, -, hvalue⟩ := F64.lt_iff.mp hgt
    rw [F64.value_zero] at hvalue
    rw [Bool.eq_false_iff, ne_eq, ← F64.value_eq_zero_iff]
    omega
  exact isZero_clamp (F64.isZero_sub hh hhp) (F64.isNaN_div_of_number (by decide) hfin hz)
    (F64.isNeg_div (by decide) (F64.isNeg_of_lt_zero hgt))

/-- The zero fixed point of `JA_REF` (R289 property 1). -/
theorem isZero_jaRef (L : NumLibChoice) (P : JaParams) {ms fs hp mp h : Word} (hfin : F64.isFinite ms = true)
    (hpos : F64.isNeg ms = false) (hfs : finitePositive fs = true) (hhp : F64.isZero hp = true)
    (hmp : F64.isZero mp = true) (hh : F64.isZero h = true) : (jaRef L P ms fs hp mp h).IsZero := by
  obtain ⟨dl, m, hm, he⟩ := jaRef_eq L P ms fs hp mp h
  have hzero : F64.isFinite m = true → F64.isZero m = true := by
    rw [hm]
    exact jaIterate_keeps (p := fun m => F64.isFinite m = true → F64.isZero m = true)
      (fun _ => isZero_jaNewton hfin hpos (isZero_slewLimit hfs hhp hh) hmp) Config.jaIters (fun _ => hmp)
  rw [he]
  split
  · rename_i hmfin
    have hmz := hzero hmfin
    have hbelow : F64.lt (softStart ms) (F64.abs m) = false := by
      have hmag := F64.mag_eq_zero_iff.mpr hmz
      simp [F64.lt, F64.value_of_not_neg (isNeg_softStart hpos), F64.value_of_not_neg (F64.isNeg_abs m), hmag]
    exact ⟨hh, hmz, (softM_of_not_gt L hbelow).symm ▸ hmz⟩
  · exact JaResult.isZero_zero

/-! ### Another solver on the port (R280) -/

/-- What is taken of a free solver's own results `hn`, `m` and `o`. -/
theorem attachedRaw_eq (id : Nat) (P : JaParams) (ms fs hp mp h : Word) : ∃ hn m o, attachedRaw id P ms fs hp mp h =
    ⟨hn, heldWithin ms m, if F64.isFinite (heldWithin ms m) && F64.isFinite o then attachedOut ms (heldWithin ms m) o
      else o⟩ := ⟨_, _, _, rfl⟩

theorem attachedRaw_limited (id : Nat) (P : JaParams) {ms : Word} (fs hp mp h : Word) (hfin : F64.isFinite ms = true)
    (hpos : F64.isNeg ms = false) : (attachedRaw id P ms fs hp mp h).Limited ms := by
  obtain ⟨hn, m, o, he⟩ := attachedRaw_eq id P ms fs hp mp h
  have hheld := heldWithin_le (v := m) (F64.isNaN_of_isFinite hfin) hpos
  rw [he]
  generalize heldWithin ms m = m at hheld
  cases ho : F64.isFinite o with
  | false => exact ⟨hheld, fun _ hout => by simp [ho] at hout⟩
  | true =>
    refine JaResult.limited_of_knee hfin hpos hheld (fun hm _ hgt => ?_) (fun hm _ hgt => ?_)
    · simpa [hm] using attachedOut_of_not_gt o hgt
    · simpa [hm] using attachedOut_le hfin hpos (hheld hm) ho hgt

theorem jaAttached_limited (id : Nat) (P : JaParams) {ms : Word} (fs hp mp h : Word) (hfin : F64.isFinite ms = true)
    (hpos : F64.isNeg ms = false) : (jaAttached id P ms fs hp mp h).Limited ms := by
  rw [jaAttached]
  split_ifs
  · exact JaResult.zero_limited hfin hpos
  · exact (attachedRaw_limited id P fs _ _ _ hfin hpos).neg
  · exact attachedRaw_limited id P fs _ _ _ hfin hpos

theorem jaAttached_of_isZero (id : Nat) (P : JaParams) (ms fs : Word) {hp mp h : Word} (hhp : F64.isZero hp = true)
    (hmp : F64.isZero mp = true) (hh : F64.isZero h = true) : jaAttached id P ms fs hp mp h = JaResult.zero :=
  if_pos (by simp [hhp, hmp, hh])

/-! ### Every solver -/

section Solvers

variable {ms : Word} (hfin : F64.isFinite ms = true) (hpos : F64.isNeg ms = false)
include hfin hpos

theorem jaSolve_limited (c : SolverChoice) (L : NumLibChoice) (P : JaParams) (fs hp mp h : Word) :
    (jaSolve c L P ms fs hp mp h).Limited ms := by
  cases c with
  | ref => exact jaRef_limited hfin hpos L P fs hp mp h
  | zero => exact JaResult.zero_limited hfin hpos
  | attached id => exact jaAttached_limited id P fs hp mp h hfin hpos

theorem isZero_jaSolve (c : SolverChoice) (L : NumLibChoice) (P : JaParams) {fs hp mp h : Word}
    (hfs : finitePositive fs = true) (hhp : F64.isZero hp = true) (hmp : F64.isZero mp = true)
    (hh : F64.isZero h = true) : (jaSolve c L P ms fs hp mp h).IsZero := by
  cases c with
  | ref =>
    rw [jaSolve]
    exact isZero_jaRef L P hfin hpos hfs hhp hmp hh
  | zero => exact JaResult.isZero_zero
  | attached id =>
    rw [jaSolve, jaAttached_of_isZero id P ms fs hhp hmp hh]
    exact JaResult.isZero_zero

end Solvers

/-- Settles O55: what every solver keeps, whichever stands on the port. -/
theorem solverProperties : Obligations.SolverProperties := by
  intro c L P ms fs hp mp h hms hfs _
  obtain ⟨hfin, hgt⟩ := finitePositive_iff.mp hms
  have hpos := F64.isNeg_of_lt_zero hgt
  obtain ⟨hmag, hout⟩ := jaSolve_limited hfin hpos c L P fs hp mp h
  exact ⟨hmag, hout, isZero_jaSolve hfin hpos c L P hfs⟩

end Sys2Proof.Machine

/-! SUPPORT. The output of the pipeline (spec/46_pipeline.md R314, R315): a finite sample times the fade gain, and a
zero where the signal state, the sample and the bias are zeros. A product of a zero with any word is a zero or a NaN, and
so is what the stages add up from such products; the guard of a stage leaves the zero. -/

namespace Sys2Proof.Machine

/-! ### The fade gain between the stages (R313) -/

theorem satStage_fadeGain (s : State) (x : Word) : (satStage s x).2.fadeGain = s.fadeGain := by
  obtain ⟨_, he, -⟩ := satStage_frame s x
  rw [he]

theorem eqProcess_fadeGain (s : State) (x : Word) : (eqProcess s x).2.fadeGain = s.fadeGain := by
  obtain ⟨_, _, he, -, -⟩ := eqProcess_frame s x
  rw [he]

theorem dispProcess_fadeGain (s : State) (x : Word) : (dispProcess s x).2.fadeGain = s.fadeGain := by
  obtain ⟨_, he, -⟩ := dispProcess_frame s x
  rw [he]

theorem hystStep_fadeGain (s : State) (v : Word) : (hystStep s v).2.fadeGain = s.fadeGain := by
  obtain ⟨_, _, he, -, -⟩ := hystStep_frame s v
  rw [he]

/-! ### Steps 1 to 3 and steps 6 to 10 (R301 to R304, R307 to R311) -/

/-- What the hysteresis port of step 4 is given, with the complement. -/
def beforePort (s : State) (x : Word) : (Word × Word) × State :=
  let sp := split s (gainStage s (sanitize x))
  (sp.1, blendEnvStep sp.2 sp.1.1)

theorem pipelineFront_eq (s : State) (x : Word) : pipelineFront s x =
    let pr := beforePort s x
    let hy := hystStep pr.2 pr.1.1
    ((blend hy.2 pr.1.1 (hystScale hy.2 hy.1 pr.1.1), pr.1.2), hy.2) := rfl

theorem pipelineFront_fadeGain (s : State) (x : Word) : (pipelineFront s x).2.fadeGain = s.fadeGain := by
  rw [pipelineFront_eq]
  exact hystStep_fadeGain _ _

/-- What the fade of step 11 is given. -/
def beforeFade (s : State) (bl c : Word) : Word × State :=
  let sat := satStage s bl
  let eq := eqProcess sat.2 (recombine sat.1 c)
  let di := dispProcess eq.2 eq.1
  dcbProcess di.2 di.1

theorem pipelineBack_eq (s : State) (bl c : Word) :
    pipelineBack s bl c = fadeStep (beforeFade s bl c).2 (beforeFade s bl c).1 := rfl

theorem beforeFade_fadeGain (s : State) (bl c : Word) : (beforeFade s bl c).2.fadeGain = s.fadeGain := by
  simp only [beforeFade, dcbProcess, dispProcess_fadeGain, eqProcess_fadeGain, satStage_fadeGain]

theorem beforeFade_finite (s : State) {bl : Word} (hbl : F64.isFinite bl = true) (c : Word) :
    F64.isFinite (beforeFade s bl c).1 = true :=
  bankProcess_finite _ (dispProcess_finite _ (eqProcess_finite _ (guardOr_finite (satStage_finite s hbl))))

/-- The output sample is what step 10 gives times the gain before this sample's increment (R312). -/
theorem pipeline_fst (s : State) (x : Word) : (pipeline s x).1 =
    F64.mul (beforeFade (pipelineFront s x).2 (pipelineFront s x).1.1 (pipelineFront s x).1.2).1 s.fadeGain := by
  rw [pipeline, pipelineBack_eq, fadeStep, beforeFade_fadeGain, pipelineFront_fadeGain]

/-- Settles O30: step 10 gives a finite sample in every state, and a gain of at most 1 does not make it overflow. -/
theorem pipelineFinite : Obligations.PipelineFinite := by
  intro s x hgain
  rw [pipeline_fst]
  exact F64.mul_inUnit_finite (beforeFade_finite _ (pipelineFront_finite s x) _) hgain

/-! ### Zeros (R12, R14, R15) -/

@[simp] theorem F64.isZero_abs (w : Word) : F64.isZero (F64.abs w) = F64.isZero w := by simp [F64.isZero]

/-- A zero or a NaN: what sums and products of zeros can be, whatever the other factors. -/
def F64.ZeroUnlessNaN (w : Word) : Prop := F64.isNaN w = false → F64.isZero w = true

namespace F64.ZeroUnlessNaN

theorem of_isZero {w : Word} (h : F64.isZero w = true) : F64.ZeroUnlessNaN w := fun _ => h

theorem add {a b : Word} (ha : F64.ZeroUnlessNaN a) (hb : F64.ZeroUnlessNaN b) : F64.ZeroUnlessNaN (F64.add a b) :=
  fun h => F64.isZero_add (ha (F64.number_of_add h).1) (hb (F64.number_of_add h).2)

theorem sub {a b : Word} (ha : F64.ZeroUnlessNaN a) (hb : F64.ZeroUnlessNaN b) : F64.ZeroUnlessNaN (F64.sub a b) :=
  ha.add fun h => by simpa using hb (by simpa using h)

/-- The other factor is any word: an infinity times a zero is a NaN. -/
theorem mul_right (a : Word) {z : Word} (hz : F64.ZeroUnlessNaN z) : F64.ZeroUnlessNaN (F64.mul a z) := fun h =>
  have hzero := hz (F64.number_of_mul h).2
  F64.isZero_mul (F64.finite_of_mul_isZero hzero h) hzero

theorem mul_left {z : Word} (hz : F64.ZeroUnlessNaN z) (a : Word) : F64.ZeroUnlessNaN (F64.mul z a) := by
  rw [F64.mul_comm]
  exact mul_right a hz

theorem ftz {v : Word} (hv : F64.ZeroUnlessNaN v) : F64.ZeroUnlessNaN (ftz v) := by
  cases hnan : F64.isNaN v with
  | true =>
    have hkeep : Machine.ftz v = v := by simp [Machine.ftz, F64.lt, hnan]
    rwa [hkeep]
  | false =>
    rw [ftz_of_isZero (hv hnan)]
    exact hv

theorem hlim (L : NumLibChoice) {h : Word} (hh : F64.ZeroUnlessNaN h) : F64.ZeroUnlessNaN (hlim L h) := by
  have hkeep : Machine.hlim L h = h := by
    cases hnan : F64.isNaN h with
    | true => exact hlim_of_isNaN L hnan
    | false =>
      have hzero : F64.value (F64.abs h) = 0 := F64.value_eq_zero_iff.mpr (by simpa using hh hnan)
      exact hlim_of_le L (F64.le_iff.mpr ⟨by simpa using hnan, by decide, by rw [hzero]; decide +kernel⟩)
  rwa [hkeep]

theorem isZero_of_isFinite {w : Word} (hw : F64.ZeroUnlessNaN w) (h : F64.isFinite w = true) : F64.isZero w = true :=
  hw (F64.isNaN_of_isFinite h)

theorem isZero_guardOr {c fb : Word} (hc : F64.ZeroUnlessNaN c) (hfb : F64.isZero fb = true) :
    F64.isZero (guardOr c fb) = true := by
  unfold guardOr
  split
  · exact hc.isZero_of_isFinite ‹_›
  · exact hfb

end F64.ZeroUnlessNaN

open F64.ZeroUnlessNaN (of_isZero)

/-! ### The units on a zero (R141, R182, R220, R224) -/

theorem bqProcess_of_silent {b : Biquad} (hb : b.silent = true) {x : Word} (hx : F64.isZero x = true) :
    F64.ZeroUnlessNaN (bqProcess b x).1 ∧ F64.ZeroUnlessNaN (bqProcess b x).2.1 ∧
    F64.ZeroUnlessNaN (bqProcess b x).2.2 := by
  obtain ⟨hz1, hz2⟩ := Bool.and_eq_true_iff.mp hb
  have hu (a : Word) : F64.ZeroUnlessNaN (F64.mul a (ftz x)) := .mul_right a (of_isZero hx).ftz
  have hy := (hu b.co.b0).add (of_isZero hz1)
  exact ⟨hy, (((hu b.co.b1).sub (.mul_right b.co.a1 hy)).add (of_isZero hz2)).ftz,
    ((hu b.co.b2).sub (.mul_right b.co.a2 hy)).ftz⟩

theorem apProcess_of_isZero (c : Word) {z x : Word} (hz : F64.isZero z = true) (hx : F64.isZero x = true) :
    F64.ZeroUnlessNaN (apProcess c z x).1 ∧ F64.ZeroUnlessNaN (apProcess c z x).2 := by
  have hu := (of_isZero hx).ftz
  have hy := (F64.ZeroUnlessNaN.mul_right c hu).add (of_isZero hz)
  exact ⟨hy, (hu.sub (.mul_right c hy)).ftz⟩

theorem envStep_of_isZero {env a : Word} (henv : F64.isZero env = true) (ha : F64.isZero a = true) (cAtt cRel : Word) :
    F64.ZeroUnlessNaN (envStep env a cAtt cRel) :=
  (F64.ZeroUnlessNaN.mul_right _ (of_isZero henv)).add (.mul_right _ (of_isZero ha))

/-- The cubic of a zero, also where the coefficient is an infinity or a NaN. -/
theorem cubicClip_of_isZero (k : Word) {b : Word} (hb : F64.isZero b = true) : F64.ZeroUnlessNaN (cubicClip k b) :=
  (of_isZero hb).sub (.mul_right k (of_isZero (isZero_cube hb)))

/-! ### Banks (R152, R186) -/

theorem bankRun_of_silent {bank : List Biquad} (hbank : bank.all Biquad.silent = true) {x : Word}
    (hx : F64.isZero x = true) (hok : (bankRun bank x).2.2 = true) :
    F64.isZero (bankRun bank x).1 = true ∧ (bankRun bank x).2.1.all Biquad.silent = true := by
  induction bank generalizing x with
  | nil => exact ⟨hx, rfl⟩
  | cons b bs ih =>
    obtain ⟨hb, hbs⟩ := Bool.and_eq_true_iff.mp hbank
    obtain ⟨hy, hn1, hn2⟩ := bqProcess_of_silent hb hx
    simp only [bankRun, Bool.and_eq_true] at hok
    obtain ⟨⟨⟨hyfin, hn1fin⟩, hn2fin⟩, hrest⟩ := hok
    obtain ⟨hout, hstates⟩ := ih hbs (hy.isZero_of_isFinite hyfin) hrest
    refine ⟨hout, ?_⟩
    simp only [bankRun, List.all_cons, Biquad.silent, hn1.isZero_of_isFinite hn1fin, hn2.isZero_of_isFinite hn2fin,
      Bool.and_self, Bool.true_and]
    exact hstates

theorem bankProcess_of_silent {bank : List Biquad} (hbank : bank.all Biquad.silent = true) {x : Word}
    (hx : F64.isZero x = true) :
    F64.isZero (bankProcess bank x).1 = true ∧ (bankProcess bank x).2.all Biquad.silent = true := by
  unfold bankProcess
  split
  · exact bankRun_of_silent hbank hx ‹_›
  · exact ⟨hx, hbank⟩

theorem dispRun_of_silent {bank : List DispStage} (hbank : bank.all (fun d => F64.isZero d.z) = true) {x : Word}
    (hx : F64.isZero x = true) (hok : (dispRun bank x).2.2 = true) :
    F64.isZero (dispRun bank x).1 = true ∧ (dispRun bank x).2.1.all (fun d => F64.isZero d.z) = true := by
  induction bank generalizing x with
  | nil => exact ⟨hx, rfl⟩
  | cons d ds ih =>
    obtain ⟨hd, hds⟩ := Bool.and_eq_true_iff.mp hbank
    obtain ⟨hy, hz⟩ := apProcess_of_isZero d.c hd hx
    simp only [dispRun, Bool.and_eq_true] at hok
    obtain ⟨⟨hyfin, hzfin⟩, hrest⟩ := hok
    obtain ⟨hout, hstates⟩ := ih hds (hy.isZero_of_isFinite hyfin) hrest
    exact ⟨hout, Bool.and_eq_true_iff.mpr ⟨hz.isZero_of_isFinite hzfin, hstates⟩⟩

/-! ### The stages on a silent state (R302 to R311) -/

/-- The solver on the port has its zero fixed point at this state's arguments (R289 property 1). -/
def State.SolverRests (s : State) : Prop := ∀ v, F64.isZero v = true →
  (jaSolve s.par.solver s.par.numlib (s.par.ja s.formula) (effectiveMs s) s.fs s.hystH s.hystM v).IsZero

theorem solverRests_beforePort (s : State) (x : Word) : (beforePort s x).2.SolverRests ↔ s.SolverRests := by
  simp only [State.SolverRests, effectiveMs, beforePort, blendEnvStep, split_state]

theorem isZero_sanitize {x : Word} (hx : F64.isZero x = true) : F64.isZero (sanitize x) = true := by
  rwa [sanitize, if_pos (F64.isFinite_of_isZero hx)]

theorem isZero_gainStage (s : State) {x : Word} (hx : F64.isZero x = true) : F64.isZero (gainStage s x) = true :=
  ((of_isZero hx).mul_left _).isZero_guardOr hx

theorem isZero_hystScale (s : State) {out v : Word} (hout : F64.isZero out = true) (hv : F64.isZero v = true) :
    F64.isZero (hystScale s out v) = true :=
  (((of_isZero hout).mul_left _).hlim _).isZero_guardOr hv

theorem isZero_blend (s : State) {v h : Word} (hv : F64.isZero v = true) (hh : F64.isZero h = true) :
    F64.isZero (blend s v h) = true :=
  (((of_isZero hv).mul_left _).add ((of_isZero hh).mul_left _)).isZero_guardOr hv

theorem isZero_recombine {sat c : Word} (hsat : F64.isZero sat = true) (hc : F64.isZero c = true) :
    F64.isZero (recombine sat c) = true :=
  ((of_isZero hsat).add (of_isZero hc)).isZero_guardOr hsat

theorem tuning_of_frozen {s u : State} (h : u.frozen = s.frozen) : u.tuning = s.tuning := (congrArg State.tuning h :)

theorem mem_of_frozen {s u : State} (h : u.frozen = s.frozen) : u.mem = s.mem := (congrArg State.mem h :)

section Stages

variable {s : State} (h : s.Silent) {x : Word} (hx : F64.isZero x = true)
include h hx

theorem State.Silent.split : F64.isZero (Machine.split s x).1.1 = true ∧ F64.isZero (Machine.split s x).1.2 = true ∧
    (Machine.split s x).2.Silent := by
  obtain ⟨hout, hbank⟩ := bankProcess_of_silent h.shield hx
  have hs : F64.isZero (Machine.split s x).1.1 = true :=
    (F64.ZeroUnlessNaN.mul_right _ (of_isZero hout)).isZero_guardOr hx
  exact ⟨hs, ((of_isZero hx).sub (of_isZero hs)).isZero_guardOr F64.isZero_zero, { h with shield := hbank }⟩

theorem State.Silent.blendEnvStep : (Machine.blendEnvStep s x).Silent :=
  { h with blendEnv := (envStep_of_isZero h.blendEnv (by simpa using hx) _ _).isZero_guardOr h.blendEnv }

theorem State.Silent.hystStep (hrest : s.SolverRests) :
    F64.isZero (Machine.hystStep s x).1 = true ∧ (Machine.hystStep s x).2.Silent := by
  obtain ⟨hhn, hmn, hout⟩ := hrest x hx
  rw [Machine.hystStep, hystAccept_of_finite (F64.isFinite_of_isZero hhn) (F64.isFinite_of_isZero hmn),
    portOut_of_finite (F64.isFinite_of_isZero hout)]
  exact ⟨hout, { h with hystH := hhn, hystM := hmn }⟩

theorem State.Silent.satStage (hbias : F64.isZero s.tuning.dcBias = true) :
    F64.isZero (Machine.satStage s x).1 = true ∧ (Machine.satStage s x).2.Silent := by
  simp only [Machine.satStage]
  split
  · rename_i hok
    obtain ⟨hyfin, hefin⟩ := Bool.and_eq_true_iff.mp hok
    have hy : F64.ZeroUnlessNaN (satStep s.par s.tuning s.satEnv x).1 := by
      rw [satStep_fst]
      exact cubicClip_of_isZero _ (F64.isZero_add hx hbias)
    have he : F64.ZeroUnlessNaN (satStep s.par s.tuning s.satEnv x).2 :=
      envStep_of_isZero h.satEnv (by simpa using hx) _ _
    exact ⟨hy.isZero_of_isFinite hyfin, { h with satEnv := he.isZero_of_isFinite hefin }⟩
  · exact ⟨hx, h⟩

theorem State.Silent.eqProcess : F64.isZero (Machine.eqProcess s x).1 = true ∧ (Machine.eqProcess s x).2.Silent := by
  unfold Machine.eqProcess
  split
  · obtain ⟨hout, hbank⟩ := bankProcess_of_silent h.eqa hx
    exact ⟨hout, { h with eqa := hbank }⟩
  · obtain ⟨hout, hbank⟩ := bankProcess_of_silent h.eqb hx
    exact ⟨hout, { h with eqb := hbank }⟩

theorem State.Silent.dispProcess :
    F64.isZero (Machine.dispProcess s x).1 = true ∧ (Machine.dispProcess s x).2.Silent := by
  unfold Machine.dispProcess
  split
  · obtain ⟨hout, hbank⟩ := dispRun_of_silent h.disp hx ‹_›
    exact ⟨hout, { h with disp := hbank }⟩
  · exact ⟨hx, h⟩

theorem State.Silent.dcbProcess :
    F64.isZero (Machine.dcbProcess s x).1 = true ∧ (Machine.dcbProcess s x).2.Silent := by
  obtain ⟨hout, hbank⟩ := bankProcess_of_silent h.dcb hx
  exact ⟨hout, { h with dcb := hbank }⟩

theorem State.Silent.fadeStep (hgain : F64.isFinite s.fadeGain = true) :
    F64.isZero (Machine.fadeStep s x).1 = true ∧ (Machine.fadeStep s x).2.Silent := by
  rw [Machine.fadeStep, F64.mul_comm]
  exact ⟨F64.isZero_mul hgain hx, { h with }⟩

/-! ### The whole pipeline -/

theorem State.Silent.beforePort : F64.isZero (Machine.beforePort s x).1.1 = true ∧
    F64.isZero (Machine.beforePort s x).1.2 = true ∧ (Machine.beforePort s x).2.Silent := by
  obtain ⟨hs, hc, hsplit⟩ := h.split (isZero_gainStage s (isZero_sanitize hx))
  rw [Machine.beforePort]
  generalize Machine.split s (gainStage s (sanitize x)) = sp at *
  exact ⟨hs, hc, hsplit.blendEnvStep hs⟩

theorem State.Silent.pipelineFront (hrest : s.SolverRests) : F64.isZero (Machine.pipelineFront s x).1.1 = true ∧
    F64.isZero (Machine.pipelineFront s x).1.2 = true ∧ (Machine.pipelineFront s x).2.Silent := by
  obtain ⟨hs, hc, hport⟩ := h.beforePort hx
  have hsolver := (solverRests_beforePort s x).mpr hrest
  rw [pipelineFront_eq]
  generalize Machine.beforePort s x = pr at *
  obtain ⟨⟨v, c⟩, u⟩ := pr
  obtain ⟨hout, hhyst⟩ := hport.hystStep hs hsolver
  exact ⟨isZero_blend _ hs (isZero_hystScale _ hout hs), hc, hhyst⟩

theorem State.Silent.beforeFade {c : Word} (hc : F64.isZero c = true) (hbias : F64.isZero s.tuning.dcBias = true) :
    F64.isZero (Machine.beforeFade s x c).1 = true ∧ (Machine.beforeFade s x c).2.Silent := by
  obtain ⟨hsat, hssat⟩ := h.satStage hx hbias
  obtain ⟨heq, hseq⟩ := hssat.eqProcess (isZero_recombine hsat hc)
  obtain ⟨hdisp, hsdisp⟩ := hseq.dispProcess heq
  exact hsdisp.dcbProcess hdisp

/-- The one product of the pipeline without a guard is the fade's, whose gain is finite (R312). -/
theorem State.Silent.pipeline (hrest : s.SolverRests) (hbias : F64.isZero s.tuning.dcBias = true)
    (hgain : F64.isFinite s.fadeGain = true) :
    F64.isZero (Machine.pipeline s x).1 = true ∧ (Machine.pipeline s x).2.Silent := by
  obtain ⟨hbl, hc, hfront⟩ := h.pipelineFront hx hrest
  rw [← tuning_of_frozen (pipelineFront_frozen s x)] at hbias
  obtain ⟨hout, hback⟩ := hfront.beforeFade hbl hc hbias
  rw [Machine.pipeline, pipelineBack_eq]
  exact hback.fadeStep hout (by rwa [beforeFade_fadeGain, pipelineFront_fadeGain])

end Stages

/-! ### The delay line (R264) -/

/-- Every ring word and the allpass state are zeros. -/
structure State.DelayRests (s : State) : Prop where
  ring : ∀ i, F64.isZero (ringRead s.mem i) = true
  azZ : F64.isZero s.azZ = true

theorem State.DelayRests.of_frozen {s u : State} (h : s.DelayRests) (hu : u.frozen = s.frozen) : u.DelayRests := by
  have hazZ : u.azZ = s.azZ := (congrArg State.azZ hu :)
  exact ⟨mem_of_frozen hu ▸ h.ring, hazZ ▸ h.azZ⟩

theorem isZero_azFractional {s : State} (hz : F64.isZero s.azZ = true) {r : Word} (hr : F64.isZero r = true) :
    F64.isZero (azFractional s r).1 = true ∧ F64.isZero (azFractional s r).2 = true := by
  cases hfrac : F64.lt s.azFrac Config.thiranMinFrac with
  | true =>
    rw [azFractional_bypass hfrac]
    exact ⟨hr, hz⟩
  | false =>
    obtain ⟨hy, hn⟩ := apProcess_of_isZero s.azCoeff hz hr
    rw [azFractional_allpass hfrac]
    split
    next hfin => exact ⟨hy.isZero_of_isFinite hfin.1, hn.isZero_of_isFinite hfin.2⟩
    next => exact ⟨hr, hz⟩

theorem State.DelayRests.azStep {s : State} (h : s.DelayRests) (hm : Memory.wf s.mem = true) {p : Word}
    (hp : F64.isZero p = true) : F64.isZero (Machine.azStep s p).1 = true ∧ (Machine.azStep s p).2.DelayRests := by
  have hring (i : Fin 16) : F64.isZero (ringRead (Machine.azStep s p).2.mem i) = true := by
    rw [ringRead_azStep p hm]
    split
    · exact hp
    · exact h.ring i
  obtain ⟨hout, hazZ⟩ := isZero_azFractional h.azZ (hring (azReadIndex s))
  exact ⟨hout, hring, hazZ⟩

theorem State.Silent.azStep {s : State} (h : s.Silent) (p : Word) : (Machine.azStep s p).2.Silent := by
  rw [azStep_state]
  exact { h with }

/-! ### PROCESS and PROCESS2 (R344, R345) -/

theorem State.Silent.complete {u : State} (h : u.Silent) (y : Word) : (Machine.complete { u with res := y }).Silent :=
  { h with }

theorem exec_process {s : State} (hf : s.fault = none) (hr : s.blockState = .ready) :
    exec .process s = .next (complete (processed s)) :=
  congrArg Host.Outcome.next (framed_ok hf (if_pos (isReady_iff.mpr hr)))

/-- Settles O32: each stage keeps the silence and hands on a zero, and so does the delay line, which the pipeline does
not touch. -/
theorem silenceInvariance : Obligations.SilenceInvariance := by
  intro s hf hr hinv hs hx hbias hrest
  have hsound := hinv.sound
  obtain ⟨hout, hquiet⟩ := hs.pipeline hx hrest hbias (isFinite_of_inUnit hsound.fadeGain)
  refine ⟨fun t ht => ?_, fun hring hz u hu => ?_⟩
  · rw [← Host.Outcome.next.inj ((exec_process hf hr).symm.trans ht)]
    simp only [processed, opSample]
    generalize pipeline s s.op0 = z at hout hquiet ⊢
    exact ⟨hout, hquiet.complete _⟩
  · rw [← Host.Outcome.next.inj ((exec_process2 hf hr).symm.trans hu)]
    have hfrozen := pipeline_frozen s s.op0
    have hwf := hsound.mem_wf
    rw [← mem_of_frozen hfrozen] at hwf
    have hdelay : s.DelayRests := ⟨hring, hz⟩
    obtain ⟨haz, hline⟩ := (hdelay.of_frozen hfrozen).azStep hwf hout
    have hquiet2 := hquiet.azStep (pipeline s s.op0).1
    simp only [processed2, opSample]
    generalize azStep (pipeline s s.op0).2 (pipeline s s.op0).1 = z at haz hline hquiet2 ⊢
    exact ⟨haz, hquiet2.complete _, hline.ring, hline.azZ⟩

end Sys2Proof.Machine

/-! SUPPORT. The commands by their outcome (spec/47_commands.md R340 to R346, R350 to R357; spec/60_exceptions.md R402
to R404). Every command but NOP and RD_REG runs in the frame of R340 (`exec_framed`), so it is refused while a fault is
pending, and a fault that it raises writes `FAULT` and `ACK` alone; NOP and RD_REG are said apart. -/

namespace Sys2Proof.Machine

/-! ### Taking a fault (R402) -/

/-- The first fault is taken with its code. -/
theorem raiseFault_of_no_fault {s : State} (hf : s.fault = none) (c : FaultCode) :
    raiseFault c s = { s with fault := some c, ack := .fault } := by rw [raiseFault, hf, Option.getD_none]

/-- A later fault shows in `ACK` alone. -/
theorem raiseFault_of_fault {s : State} (hf : s.fault.isSome = true) (c : FaultCode) :
    raiseFault c s = { s with ack := .fault } := by
  obtain ⟨d, hd⟩ := Option.isSome_iff_exists.mp hf
  rw [raiseFault, hd, Option.getD_some, ← hd]

/-! ### The frame of R340 -/

/-- The frame with no fault pending and a rule that raises one, register by register. -/
theorem framed_fault {s : State} {c : FaultCode} {body : State → Except FaultCode State} (hf : s.fault = none)
    (hbody : body s = .error c) : framed s body = { s with fault := some c, ack := .fault } :=
  (framed_error hf hbody).trans (raiseFault_of_no_fault hf c)

theorem exec_framed {i : Instr} (hnop : i ≠ .nop) (hrd : ∀ a, i ≠ .rdReg a) :
    ∃ body, ∀ s, exec i s = .next (framed s body) := by
  cases i with
  | nop => exact absurd rfl hnop
  | rdReg a => exact absurd rfl (hrd a)
  | configure | setProfile | reset | process | process2 | calSatA3 | calPower | calLowScale | calBlendRatio
    | calLowThresh | calCurvePower | calKneeThresh | calKneeAmount => exact ⟨_, fun _ => rfl⟩

theorem exec_refused {i : Instr} (hnop : i ≠ .nop) (hrd : ∀ a, i ≠ .rdReg a) {s : State} (hf : s.fault.isSome = true) :
    exec i s = .next { s with ack := .refused } := by
  obtain ⟨body, hexec⟩ := exec_framed hnop hrd
  rw [hexec, framed_refused hf, refuse]

/-- No effect of a command writes `FAULT`. -/
theorem Effect.fault {i : Instr} {s u : State} (h : Effect i s u) : u.fault = s.fault := by
  cases h with
  | process | process2 => exact fault_of_kept (by simp)
  | nop | configure | switchProfile | latchProfile | reset | rdReg | calibrate => rfl

/-- A command takes a fault, which `ACK` shows, or leaves `FAULT` as it was. -/
theorem exec_fault_cases {i : Instr} {s t : State} (h : exec i s = .next t) :
    (t.fault = s.fault ∧ t.ack ≠ .fault) ∨ ∃ c, t = raiseFault c s := by
  rcases exec_effect h with ⟨hack, -⟩ | ⟨u, hu, rfl⟩
  · by_cases hnop : i = .nop
    · subst hnop
      cases h
      exact absurd rfl hack
    by_cases hrd : ∃ a, i = .rdReg a
    · obtain ⟨a, rfl⟩ := hrd
      rcases execRdReg_cases a s with ⟨v, -, he⟩ | ⟨-, he⟩
      · cases he.symm.trans h
        exact absurd rfl hack
      · cases he.symm.trans h
        exact .inr ⟨_, rfl⟩
    obtain ⟨body, hexec⟩ := exec_framed hnop (not_exists.mp hrd)
    cases (hexec s).symm.trans h
    rcases framed_cases s body with ⟨-, he⟩ | ⟨-, v, -, he⟩ | ⟨-, c, -, he⟩
    · exact .inl (he ▸ ⟨rfl, by simp⟩)
    · exact absurd (congrArg State.ack he) hack
    · exact .inr ⟨c, he⟩
  · exact .inl ⟨hu.fault, by simp⟩

/-- Settles O35: a command that answers FAULT has run `raiseFault` on the state before it. -/
theorem faultsArePrecise : Obligations.FaultsArePrecise := fun _ _ _ h hack =>
  (exec_fault_cases h).resolve_left fun hkept => hkept.2 hack

/-! ### NOP and RD_REG (R341, R346) -/

theorem exec_nop (s : State) : exec .nop s = .next { s with ack := .ok } := rfl

theorem statusWord_resetWith (P : Params) : statusWord (State.resetWith P) = 0x100#64 := by
  have hfade : F64.eq Lit.zero Lit.one = false := by decide
  simp [statusWord, State.resetWith, State.isReady, State.fadeDone, hfade, bit, fcode, ackCode]

/-- Settles O16: NOP writes ACK alone, and after hardware reset ACK is OK already. -/
theorem nopCompletes : Obligations.NopCompletes := by
  refine ⟨rfl, exec_nop, fun _ _ h _ => ?_, fun P t h => ?_⟩
  · cases h
    rfl
  · cases h
    exact statusWord_resetWith P

theorem exec_rdReg_mapped {s : State} {a : Nat} {v : Word} (hv : regRead s a = some v) :
    exec (.rdReg a) s = .next { s with res := v, ack := .ok } := by
  rcases execRdReg_cases a s with ⟨w, hw, he⟩ | ⟨hnone, -⟩
  · cases hw.symm.trans hv
    exact he
  · cases hnone.symm.trans hv

theorem exec_rdReg_unmapped {s : State} {a : Nat} (hnone : regRead s a = none) :
    exec (.rdReg a) s = .next (raiseFault .badAddr s) := by
  rcases execRdReg_cases a s with ⟨w, hw, -⟩ | ⟨-, he⟩
  · cases hw.symm.trans hnone
  · exact he

/-- Settles O18. -/
theorem rdRegCompletes : Obligations.RdRegCompletes := fun _ _ _ hv => ⟨exec_rdReg_mapped hv, fun _ => rfl⟩

/-- Settles O19: BAD_ADDR is a fault like another, of which only ACK shows when one is pending. -/
theorem rdRegUnmapped : Obligations.RdRegUnmapped := fun _ _ hnone =>
  ⟨fun hf => (exec_rdReg_unmapped hnone).trans (congrArg _ (raiseFault_of_no_fault hf _)),
    fun hf => (exec_rdReg_unmapped hnone).trans (congrArg _ (raiseFault_of_fault hf _))⟩

/-- Settles O34: NOP and RD_REG run outside the frame, which refuses every other word. -/
theorem faultPendingBehaviour : Obligations.FaultPendingBehaviour := fun s hf =>
  ⟨exec_nop s, fun _ _ => exec_rdReg_mapped, fun a hnone => (rdRegUnmapped s a hnone).2 hf,
    fun _ hnop hrd => exec_refused hnop hrd hf, illegalCommand_of_fault hf⟩

/-! ### The calibration commands (R350 to R357) -/

theorem exec_calibrate {i : Instr} {put : Word → Tuning → Tuning} (hput : calPut i = some put) {s : State}
    (hf : s.fault = none) (hfin : F64.isFinite s.op0 = true) :
    exec i s = .next { s with tuning := put s.op0 s.tuning, ack := .ok } := by
  have hbody : calibrate put s = .ok { s with tuning := put s.op0 s.tuning } := if_pos hfin
  rw [exec_of_calPut hput, framed_ok hf hbody, complete]

theorem exec_calibrate_badOperand {i : Instr} {put : Word → Tuning → Tuning} (hput : calPut i = some put) {s : State}
    (hf : s.fault = none) (hfin : F64.isFinite s.op0 = false) :
    exec i s = .next { s with fault := some .badOperand, ack := .fault } := by
  have hbody : calibrate put s = .error .badOperand := if_neg (by simp [opValue, hfin])
  rw [exec_of_calPut hput, framed_fault hf hbody]

/-- The commands of the statement `CalibrationCommands`. -/
def calCommands : List Instr :=
  [.calSatA3, .calPower, .calLowScale, .calBlendRatio, .calLowThresh, .calCurvePower, .calKneeThresh, .calKneeAmount]

theorem exists_calPut {i : Instr} (hi : i ∈ calCommands) : ∃ put, calPut i = some put :=
  Option.isSome_iff_exists.mp ((by decide : ∀ i ∈ calCommands, (calPut i).isSome = true) i hi)

/-- Settles O33: `calPut` gives each command's register. -/
theorem calibrationCommands : Obligations.CalibrationCommands := by
  intro s hf
  refine ⟨fun hfin => ?_, fun hfin i hi => ?_, by decide⟩
  · have hdone (i : Instr) {put : Word → Tuning → Tuning} (hput : calPut i = some put) :=
      exec_calibrate hput hf hfin
    refine ⟨(hdone .calSatA3 rfl :), (hdone .calPower rfl :), (hdone .calLowScale rfl :), (hdone .calBlendRatio rfl :),
      (hdone .calLowThresh rfl :), (hdone .calCurvePower rfl :), (hdone .calKneeThresh rfl :),
      (hdone .calKneeAmount rfl :), fun i hi t ht a => ?_⟩
    obtain ⟨put, hput⟩ := exists_calPut hi
    cases (hdone i hput).symm.trans ht
    rfl
  · obtain ⟨put, hput⟩ := exists_calPut hi
    exact exec_calibrate_badOperand hput hf hfin

/-! ### The pipeline commands (R344, R345, R403) -/

/-- Settles O29: both rules ask for state Ready first. -/
theorem processUnconfigured : Obligations.ProcessUnconfigured := by
  intro s hf hu
  have hbody (f : State → State) :
      (if s.isReady then .ok (f s) else .error .unconfigured : Except FaultCode State) = .error .unconfigured :=
    if_neg (by simp [isReady_iff, hu])
  exact ⟨congrArg Host.Outcome.next (framed_fault hf (hbody processed)),
    congrArg Host.Outcome.next (framed_fault hf (hbody processed2))⟩

/-- Settles O36: each of the four commands completes, and no effect writes `FAULT`. -/
theorem recoveredEventsRaiseNoFault : Obligations.RecoveredEventsRaiseNoFault := by
  intro s t hf h
  suffices hdone : ∃ i u, Effect i s u ∧ t = complete u by
    obtain ⟨i, u, hu, rfl⟩ := hdone
    exact ⟨hu.fault.trans hf, rfl⟩
  rcases h with h | h | ⟨hr, h | h⟩
  · cases (exec_nop s).symm.trans h
    exact ⟨_, _, .nop s, rfl⟩
  · cases (exec_reset hf).symm.trans h
    exact ⟨_, _, .reset s, rfl⟩
  · cases (exec_process hf hr).symm.trans h
    exact ⟨_, _, .process hr, rfl⟩
  · cases (exec_process2 hf hr).symm.trans h
    exact ⟨_, _, .process2 hr, rfl⟩

/-- Settles O27: PROCESS in Ready leaves `processed`, whose frame is the pipeline's. -/
theorem processCompletes : Obligations.ProcessCompletes := by
  intro s hf hr
  have hkept : (processed s).kept = s.kept := processed_kept s
  have hfault : (processed s).fault = none := (fault_of_kept hkept).trans hf
  have hready : (processed s).blockState = .ready := (blockState_of_kept hkept).trans hr
  have hdelay := processed_sameDelayLine s
  have hfade := processed_fadeGain s
  have hexec := exec_process hf hr
  have hhost := (sameHost_of_kept hkept).complete
  have hsettings := (sameSettings_of_kept hkept).complete
  have hcoeffs := (sameCoeffs_of_kept hkept).complete
  obtain ⟨hb, ha⟩ := pipeline_inactive s s.op0
  simp only [processed, opSample] at hfault hready hdelay hfade hexec hhost hsettings hcoeffs
  generalize pipeline s s.op0 = u at *
  exact ⟨_, hexec, rfl, rfl, rfl, hfade, hb, ha, hhost, hsettings, hcoeffs, { hdelay with }, hready, hfault⟩

theorem processed_res (s : State) : (processed s).res = (pipeline s s.op0).1 := by
  simp only [processed, opSample]

/-- Settles O31: the output sample is a finite sample times the fade gain, which RESET put at +0.0. -/
theorem firstSampleAfterReset : Obligations.FirstSampleAfterReset := by
  intro s t u hf hr ht x hu
  obtain rfl := Host.Outcome.next.inj ((exec_reset hf).symm.trans ht)
  have hexec := exec_process (s := { complete (zeroSignal s) with op0 := x }) hf hr
  rw [← Host.Outcome.next.inj (hexec.symm.trans hu), complete_res, processed_res, pipeline_fst]
  exact F64.isZero_mul (beforeFade_finite _ (pipelineFront_finite _ _) _) F64.isZero_zero

end Sys2Proof.Machine

/-! SUPPORT. CONFIGURE and SET_PROFILE (spec/47_commands.md R342, R347 to R349): what each branch of their rules answers,
said once, and the settings they store. -/

namespace Sys2Proof.Machine

/-! ### CONFIGURE (R342) -/

theorem rateOk_of_positive {fs : Word} (hfin : F64.isFinite fs = true) (hpos : F64.lt Lit.zero fs = true) :
    rateOk fs = true := rateOk_iff.mpr (finitePositive_iff.mpr ⟨hfin, hpos⟩)

theorem configureBody_badRate {s : State} (h : rateOk s.op0 = false) : configureBody s = .error .badRate :=
  if_neg (by simp [opSampleRate, h])

theorem configureBody_badDesign {s : State} (hrate : rateOk s.op0 = true)
    (hset : recomputeFull s.par s.op0 s.profile s.formula = none) : configureBody s = .error .badDesign := by
  simp only [configureBody, opSampleRate, hrate, hset, if_true]

theorem configureBody_ok {s : State} {r : RateSet} {p : ProfileSet} (hrate : rateOk s.op0 = true)
    (hset : recomputeFull s.par s.op0 s.profile s.formula = some (r, p)) :
    configureBody s = .ok { commitProfile p (commitRate r s) with fs := s.op0, blockState := .ready } := by
  simp only [configureBody, opSampleRate, hrate, hset, if_true]

theorem SameSignal.complete {s t : State} (h : SameSignal s t) : SameSignal s (complete t) :=
  { h with delay := { h.delay with } }

theorem SameRate.complete {s t : State} (h : SameRate s t) : SameRate s (complete t) := { h with }

/-- Settles O20: CONFIGURE has the effect `Effect.configure`, whose frame is known; what it commits it holds. -/
theorem configureCompletes : Obligations.ConfigureCompletes := by
  intro s r p hf hs hfin hpos hset
  have hrate := rateOk_of_positive hfin hpos
  have heffect : Effect .configure s { commitProfile p (commitRate r s) with fs := s.op0, blockState := .ready } :=
    .configure hrate hset
  have htuning := (recomputeProfile_tuning (recomputeFull_some.mp hset).2).1
  refine ⟨_, congrArg Host.Outcome.next (framed_ok hf (configureBody_ok hrate hset)), rfl, rfl, rfl, hf,
    { commitRate_holds r s with }, { commitProfile_holds p s with }, htuning, ?_, heffect.sameHost.complete, rfl,
    rfl, rfl, rfl, rfl⟩
  exact SameSignal.complete ((heffect.sameSignal hs).resolve_right (by simp))

/-- Settles O21: the rule asks for the rate first and for the recomputation after it. -/
theorem configureFaults : Obligations.ConfigureFaults := by
  refine fun s hf => ⟨fun hbad => ?_, fun hfin hpos hset => ?_⟩
  · have hrate : rateOk s.op0 = false := by rcases hbad with h | h <;> simp [rateOk, h]
    exact congrArg Host.Outcome.next (framed_fault hf (configureBody_badRate hrate))
  · have hrate := rateOk_of_positive hfin hpos
    exact congrArg Host.Outcome.next (framed_fault hf (configureBody_badDesign hrate hset))

/-! ### A rate of 10 Hz or less (R144, R157) -/

/-- Half of a positive rate of at most 10 Hz is at most the 5 Hz of the DC blocker. -/
theorem half_le_dcbF {fs : Word} (hfin : F64.isFinite fs = true) (hpos : F64.lt Lit.zero fs = true)
    (hle : F64.le fs Lit.ten = true) : F64.le (F64.mul fs Lit.half) Config.dcbF = true := by
  have hten : F64.mag Lit.ten * F64.mag Lit.half = F64.mag Config.dcbF * 2 ^ 1074 := by decide +kernel
  have hmag : F64.mag fs ≤ F64.mag Lit.ten := by
    obtain ⟨-, -, hvalue⟩ := F64.le_iff.mp hle
    rw [F64.value_of_not_neg (F64.isNeg_of_lt_zero hpos), F64.value_of_not_neg (by decide)] at hvalue
    exact Int.ofNat_le.mp hvalue
  have hbound : F64.le (F64.abs (F64.mul fs Lit.half)) Config.dcbF = true :=
    F64.abs_mul_le hfin (by decide) (by decide) (by decide) ((Nat.mul_le_mul_right _ hmag).trans_eq hten)
  obtain ⟨hnum, hnum', -, hvalue⟩ := F64.abs_le_iff_value.mp hbound
  exact F64.le_iff.mpr ⟨hnum, hnum', hvalue⟩

theorem bqDesign_dcb_eq_none (L : NumLibChoice) {fs : Word} (h : F64.le (F64.mul fs Lit.half) Config.dcbF = true) :
    bqDesign L dcbDescriptor fs = none :=
  if_neg (by simp [frequencyOk, dcbDescriptor, F64.lt_eq_false_of_le h])

theorem designAll_eq_none {L : NumLibChoice} {fs : Word} {d : Descriptor} (h : bqDesign L d fs = none)
    (ds : List Descriptor) : designAll L fs (d :: ds) = none := by simp only [designAll, h]

theorem recomputeRate_eq_none {P : Params} {fs : Word} (h : F64.le (F64.mul fs Lit.half) Config.dcbF = true) :
    recomputeRate P fs = none := by
  have hdcb : designAll P.numlib fs (List.replicate Config.dcbN dcbDescriptor) = none :=
    designAll_eq_none (bqDesign_dcb_eq_none _ h) _
  simp only [recomputeRate]
  split
  · rename_i hsome
    cases hdcb.symm.trans hsome
  · rfl

/-- Settles O22: the DC blocker has no design, so the recomputation fails. -/
theorem configureTenHertzFails : Obligations.ConfigureTenHertzFails := by
  intro s hf hfin hpos hle
  have hrate : recomputeRate s.par s.op0 = none := recomputeRate_eq_none (half_le_dcbF hfin hpos hle)
  exact (configureFaults s hf).2 hfin hpos (by simp only [recomputeFull, hrate])

/-! ### SET_PROFILE (R347) -/

/-- What the settings have to differ in for a recomputation in state Ready. -/
theorem settingsChanged_iff {s : State} {p : Profile} {f : Formula} {g : Word} : settingsChanged s p f g = true ↔
    p ≠ s.profile ∨ f ≠ s.formula ∨ (s.par.gainTriggersRecompute = true ∧ F64.eq g s.ingain = false) := by
  simp [settingsChanged, or_assoc]

/-- The operands of SET_PROFILE call for a recomputation (R347). -/
def State.switches (s : State) (f : Formula) : Bool :=
  s.isReady && settingsChanged s (profileOf s.par (clampedBias s.op0)) f s.op1

/-- The state `t` with the settings that SET_PROFILE stores from the operands and parameters of `s` (R347). -/
def State.withSettings (s t : State) (f : Formula) : State :=
  storeSettings (clampedBias s.op0) s.op1 (profileOf s.par (clampedBias s.op0)) f t

theorem State.switches_iff {s : State} {f : Formula} : s.switches f = true ↔ s.blockState = .ready ∧
    (profileOf s.par (clampedBias s.op0) ≠ s.profile ∨ f ≠ s.formula ∨
      (s.par.gainTriggersRecompute = true ∧ F64.eq s.op1 s.ingain = false)) := by
  rw [State.switches, Bool.and_eq_true, isReady_iff, settingsChanged_iff]

theorem setProfileBody_badOperand {s : State} (f : Formula)
    (h : F64.isFinite s.op0 = false ∨ F64.isFinite s.op1 = false) : setProfileBody f s = .error .badOperand :=
  if_neg (by rcases h with h | h <;> simp [opBias, opGain, h])

section Operands

variable {s : State} {f : Formula} (hb : F64.isFinite s.op0 = true) (hg : F64.isFinite s.op1 = true)
include hb hg

theorem setProfileBody_latch (h : s.switches f = false) : setProfileBody f s = .ok (s.withSettings s f) := by
  rw [State.switches] at h
  simp [setProfileBody, opBias, opGain, hb, hg, h, State.withSettings]

theorem setProfileBody_switch (h : s.switches f = true) {q : ProfileSet}
    (hset : recomputeProfile s.par s.fs (profileOf s.par (clampedBias s.op0)) f = some q) :
    setProfileBody f s = .ok (s.withSettings (commitProfile q s) f) := by
  rw [State.switches] at h
  simp [setProfileBody, opBias, opGain, hb, hg, h, hset, State.withSettings]

theorem setProfileBody_badDesign (h : s.switches f = true)
    (hset : recomputeProfile s.par s.fs (profileOf s.par (clampedBias s.op0)) f = none) :
    setProfileBody f s = .error .badDesign := by
  rw [State.switches] at h
  simp [setProfileBody, opBias, opGain, hb, hg, h, hset]

end Operands

/-- Storing the settings touches no signal state and no coefficient. -/
theorem withSettings_same (s : State) (f : Formula) :
    SameSignal s (s.withSettings s f) ∧ SameCoeffs s (s.withSettings s f) :=
  ⟨{ SameSignal.refl s with delay := { SameDelayLine.refl s with } },
    { SameRate.refl s with }, { SameShape.refl s with }, rfl⟩

/-- Settles O23: without a recomputation the rule stores the settings. -/
theorem setProfileStoresSettings : Obligations.SetProfileStoresSettings := by
  intro s f hf hb hg hkeep
  have hlatch : s.switches f = false := by
    rw [← Bool.not_eq_true, State.switches_iff]
    rintro ⟨hready, hchange⟩
    rcases hkeep with hu | ⟨hp, hform, hgain⟩
    · cases hu.symm.trans hready
    · rcases hchange with hne | hne | ⟨htrig, hne⟩
      · exact hne hp
      · exact hne hform
      · rcases hgain with hoff | heq
        · cases hoff.symm.trans htrig
        · cases hne.symm.trans heq
  have hexec : exec (.setProfile f) s = .next (complete (s.withSettings s f)) :=
    congrArg Host.Outcome.next (framed_ok hf (setProfileBody_latch hb hg hlatch))
  refine ⟨hexec, fun t ht => ?_⟩
  rw [← Host.Outcome.next.inj (hexec.symm.trans ht)]
  exact ⟨(withSettings_same s f).1.complete, (withSettings_same s f).2.complete⟩

/-- Settles O25: the rule asks for the operands first and for the recomputation after them. -/
theorem setProfileFaults : Obligations.SetProfileFaults := by
  refine fun s f hf => ⟨fun hbad => ?_, fun hb hg hready hchange hset => ?_⟩
  · exact congrArg Host.Outcome.next (framed_fault hf (setProfileBody_badOperand f hbad))
  · have hswitch := State.switches_iff.mpr ⟨hready, hchange⟩
    exact congrArg Host.Outcome.next (framed_fault hf (setProfileBody_badDesign hb hg hswitch hset))

/-- Settles O24: SET_PROFILE has the effect `Effect.switchProfile`, whose frame is known; what it commits it holds. -/
theorem setProfileRecomputes : Obligations.SetProfileRecomputes := by
  intro s f q hf hs hready hb hg hchange hset
  have heffect : Effect (.setProfile f) s (s.withSettings (commitProfile q s) f) := .switchProfile hb hg hready hset
  have hswitch := State.switches_iff.mpr ⟨hready, hchange⟩
  refine ⟨_, congrArg Host.Outcome.next (framed_ok hf (setProfileBody_switch hb hg hswitch hset)), rfl, rfl, rfl, rfl,
    rfl, hf, { commitProfile_holds q s with }, (recomputeProfile_tuning hset).1, ?_, ?_, heffect.sameHost.complete, rfl, rfl,
    hready⟩
  · exact SameRate.complete (heffect.sameRate.resolve_right (by simp))
  · exact SameSignal.complete ((heffect.sameSignal hs).resolve_right (by simp))

/-! ### The bias and the profile (R347, R47(5)) -/

/-- The stored bias, by where the operand lies. -/
theorem clampedBias_cases {b : Word} (h : F64.isFinite b = true) :
    (clampedBias b = b ∧ 0 ≤ F64.value b ∧ F64.value b ≤ 2 ^ 1074) ∨
    (clampedBias b = Lit.zero ∧ F64.value b ≤ 0) ∨ (clampedBias b = Lit.one ∧ 2 ^ 1074 ≤ F64.value b) := by
  have hcases := clamp_cases (F64.isNaN_of_isFinite h) (by decide : F64.isNaN Lit.zero = false)
    (by decide : F64.isNaN Lit.one = false)
  rw [F64.value_zero, F64.value_one] at hcases
  rcases hcases with hin | ⟨he, hle, -⟩ | ⟨he, hge⟩
  · exact .inl hin
  · exact .inr (.inl ⟨he, hle⟩)
  · exact .inr (.inr ⟨he, hge.resolve_right (by decide +kernel)⟩)

theorem F64.value_profileThreshold :
    0 < F64.value Config.profileThreshold ∧ F64.value Config.profileThreshold < 2 ^ 1074 := by decide +kernel

/-- The clamp keeps the side of the threshold, which lies inside (0, 1). -/
theorem le_threshold_clampedBias {b : Word} (h : F64.isFinite b = true) :
    F64.le Config.profileThreshold (clampedBias b) = F64.le Config.profileThreshold b := by
  obtain ⟨hlow, hhigh⟩ := F64.value_profileThreshold
  have hnum : F64.isNaN Config.profileThreshold = false := by decide
  have hzero : F64.isNaN Lit.zero = false := by decide
  have hone : F64.isNaN Lit.one = false := by decide
  have hb := F64.isNaN_of_isFinite h
  rw [Bool.eq_iff_iff, F64.le_iff, F64.le_iff]
  rcases clampedBias_cases h with ⟨he, -, -⟩ | ⟨he, hle⟩ | ⟨he, hge⟩
  · rw [he]
  · simp only [he, F64.value_zero, hzero, hnum, hb, true_and]
    omega
  · simp only [he, F64.value_one, hone, hnum, hb, true_and]
    omega

theorem profileOf_eq_A_iff {P : Params} {b : Word} :
    profileOf P b = .A ↔ F64.le Config.profileThreshold b = P.profileAAtOrAbove := by
  unfold profileOf
  split <;> simp_all

/-- At the upper end the clamp gives 1.0 itself: a number has one pattern unless it is zero. -/
theorem clampedBias_of_one_le {b : Word} (h : F64.isFinite b = true) (hle : 2 ^ 1074 ≤ F64.value b) :
    clampedBias b = Lit.one := by
  rcases clampedBias_cases h with ⟨he, -, hin⟩ | ⟨-, hneg⟩ | ⟨he, -⟩
  · have heq : F64.eq b Lit.one = true :=
      F64.eq_iff.mpr ⟨F64.isNaN_of_isFinite h, by decide, (le_antisymm hin hle).trans F64.value_one.symm⟩
    rcases F64.eq_cases h heq with hb | ⟨-, hzero⟩
    · rw [he, hb]
    · exact absurd hzero (by decide)
  · exact absurd (hle.trans hneg) (by decide +kernel)
  · exact he

/-- Settles O26, by where the operand lies; the clamp does not cross the threshold. -/
theorem biasClampAndThreshold : Obligations.BiasClampAndThreshold := by
  intro P b h
  refine ⟨clampedBias_inUnit h, fun hneg => ?_, fun hpos hlt => ?_, fun hge => ?_,
    profileOf_eq_A_iff.trans (by rw [le_threshold_clampedBias h]; rfl)⟩
  · have hvalue := (F64.lt_iff.mp hneg).2.2
    rw [F64.value_zero] at hvalue
    rcases clampedBias_cases h with ⟨-, h0, -⟩ | ⟨he, -⟩ | ⟨-, h1⟩
    · omega
    · exact he
    · omega
  · have hlow := (F64.lt_iff.mp hpos).2.2
    have hhigh := (F64.lt_iff.mp hlt).2.2
    rw [F64.value_zero] at hlow
    rw [F64.value_one] at hhigh
    rcases clampedBias_cases h with ⟨he, -, -⟩ | ⟨-, h0⟩ | ⟨-, h1⟩
    · exact he
    · omega
    · omega
  · have hvalue := (F64.le_iff.mp hge).2.2
    exact clampedBias_of_one_le h (F64.value_one ▸ hvalue)

end Sys2Proof.Machine

/-! SUPPORT. The fault latch over steps (spec/60_exceptions.md R402, R406, R408) and hardware reset
(spec/70_reset_and_hazards.md R430). -/

namespace Sys2Proof.Machine

/-! ### Hardware reset (R430) -/

theorem step_of_resetPulse {s : State} {rest : List HostEvent} (hp : s.pending = .resetPulse :: rest) :
    step s = .next (hwReset { s with pending := rest }) := by simp only [step, hp, takeEvent]

theorem takesReset_iff {s : State} : s.takesReset ↔ s.pending = .resetPulse :: s.pending.tail := by
  unfold State.takesReset
  cases s.pending <;> simp

theorem eq_zero_of_mem_reset_bank (P : Params) {b : Biquad} (h : b ∈ (State.resetWith P).shield ∨
    b ∈ (State.resetWith P).eqa ∨ b ∈ (State.resetWith P).eqb ∨ b ∈ (State.resetWith P).dcb) : b = Biquad.zero := by
  rcases h with h | h | h | h <;> exact List.eq_of_mem_replicate h

/-- Settles O11: the pulse leaves `State.resetWith`, with the host's side of the port as it was. -/
theorem hardwareReset : Obligations.HardwareReset := by
  intro s rest hp
  obtain ⟨hshield, heqa, heqb, hdcb, hdisp⟩ := shapeOk_iff.mp (resetWith_sound s.par).inv.shape
  refine ⟨hwReset { s with pending := rest }, step_of_resetPulse hp, rfl, rfl, rfl, rfl, rfl, rfl,
    statusWord_resetWith s.par, rfl, rfl, rfl, rfl, rfl, rfl, rfl,
    ⟨hshield, heqa, heqb, hdcb, fun _ => eq_zero_of_mem_reset_bank s.par⟩, rfl,
    ⟨hdisp, fun _ => List.eq_of_mem_replicate⟩, rfl, rfl, rfl, rfl, rfl, rfl, rfl, rfl, rfl, rfl, rfl, rfl,
    ringRead_nil, rfl, rfl, rfl, rfl, rfl, rfl, rfl, rfl, rfl, rfl, rfl⟩

/-! ### The fault latch (R402) -/

/-- From `s` to `t` a fault was taken, the first of which keeps its code, and `ACK` shows it. -/
def TakesFault (s t : State) : Prop := t.ack = .fault ∧ ∃ c, t.fault = some (s.fault.getD c)

theorem illegalCommand_fault_cases (s : State) :
    ((illegalCommand s).fault = s.fault ∧ (illegalCommand s).ack ≠ .fault) ∨ TakesFault s (illegalCommand s) := by
  rcases framed_cases s (fun _ => .error .illegalCmd) with ⟨-, he⟩ | ⟨-, _, he, -⟩ | ⟨-, c, -, he⟩
  · exact .inl (by simp [illegalCommand, he])
  · cases he
  · exact .inr ⟨congrArg State.ack he, c, congrArg State.fault he⟩

/-- A word written to `CMD` takes a fault, which `ACK` shows, or leaves `FAULT` as it was. -/
theorem issue_fault_cases {lanes : List Byte} {s t : State} (h : issue lanes s = .next t) :
    (t.fault = s.fault ∧ t.ack ≠ .fault) ∨ TakesFault s t := by
  rcases issue_cases h with ⟨i, -, hexec⟩ | ⟨e, -, rfl⟩
  · rcases exec_fault_cases hexec with hkept | ⟨c, rfl⟩
    · exact .inl hkept
    · exact .inr ⟨rfl, c, rfl⟩
  · exact illegalCommand_fault_cases { s with cmd := cmdOfLanes lanes }

/-- A step other than a hardware reset takes a fault, which `ACK` shows, or leaves `FAULT` as it was; and then `ACK` is
not FAULT after a `CMD` write. -/
theorem step_fault_cases {s t : State} (h : step s = .next t) (hr : ¬ s.takesReset) :
    (t.fault = s.fault ∧ (s.takesWrite 0x00 → t.ack ≠ .fault)) ∨ TakesFault s t := by
  rcases step_cases h with ⟨hp, rfl⟩ | ⟨rest, hp, -⟩ | ⟨_, _, rest, _, hp, -, rfl⟩ | ⟨offset, lanes, rest, hp, hw⟩
  · exact .inl ⟨rfl, fun ⟨_, hcmd⟩ => by simp [hp] at hcmd⟩
  · exact absurd (by simp [State.takesReset, hp]) hr
  · exact .inl ⟨rfl, fun ⟨_, hcmd⟩ => by simp [hp] at hcmd⟩
  · have hother {u : State} (hne : offset ≠ 0) (hu : u.fault = s.fault) :
        (u.fault = s.fault ∧ (s.takesWrite 0x00 → u.ack ≠ .fault)) ∨ TakesFault s u :=
      .inl ⟨hu, fun ⟨_, hcmd⟩ => absurd (by simpa [hp] using hcmd : offset = 0 ∧ _).1 hne⟩
    rcases hostWrite_cases hw with ⟨-, hissue⟩ | ⟨hreg, rfl⟩ | ⟨hreg, rfl⟩ | ⟨hreg, rfl⟩
    · exact (issue_fault_cases hissue).imp_left fun hkept => ⟨hkept.1, fun _ => hkept.2⟩
    · exact hother (by simp [(windowReg_eq_some hreg).1, WindowReg.offset]) rfl
    · exact hother (by simp [(windowReg_eq_some hreg).1, WindowReg.offset]) rfl
    · refine hother ?_ rfl
      rcases hreg with hreg | hreg | hreg <;> simp [(windowReg_eq_some hreg).1, WindowReg.offset]

/-- Settles O37: a fault that is taken later keeps the first code; a hardware reset is the reset state. -/
theorem faultIsSticky : Obligations.FaultIsSticky := by
  refine ⟨fun s t c h hs hr => ?_, fun s t h hr => ?_⟩
  · rcases step_fault_cases h hr with ⟨hkept, -⟩ | ⟨-, d, ht⟩
    · exact hkept.trans hs
    · rw [ht, hs, Option.getD_some]
  · cases (step_of_resetPulse (takesReset_iff.mp hr)).symm.trans h
    exact ⟨rfl, rfl⟩

/-- Settles O38: the first clause by the layout of STATUS, the others by what a step does to the fault latch. -/
theorem faultOutput : Obligations.FaultOutput := by
  have hreset (s t : State) (h : step s = .next t) (hr : s.takesReset) : faultOut t = false := by
    rw [faultOut, (faultIsSticky.2 s t h hr).2, Option.isSome_none]
  refine ⟨fun s => ?_, fun s t h hs ht => ?_, fun s t h hs ht => ?_, fun s t h hw hack => ?_, hreset⟩
  · obtain ⟨-, hfault, -⟩ := statusLayout s
    exact Bool.eq_iff_iff.mpr hfault.symm
  · by_contra hr
    obtain ⟨c, hc⟩ := Option.isSome_iff_exists.mp hs
    have hkept := faultIsSticky.1 s t c h hc hr
    simp [faultOut, hkept] at ht
  · by_cases hr : s.takesReset
    · cases (hreset s t h hr).symm.trans ht
    · rcases step_fault_cases h hr with ⟨hkept, -⟩ | ⟨hack, -⟩
      · rw [faultOut, hkept] at ht
        cases hs.symm.trans ht
      · exact hack
  · have hr : ¬ s.takesReset := by
      obtain ⟨lanes, hcmd⟩ := hw
      simp [State.takesReset, hcmd]
    rcases step_fault_cases h hr with ⟨-, hno⟩ | ⟨-, c, ht⟩
    · exact absurd hack (hno hw)
    · rw [faultOut, ht, Option.isSome_some]

end Sys2Proof.Machine
